-- ==== Sys2Proof/Word.lean ====
section
/-!
DEFINITION. The bit-vector types of the machine (00_scope.md R4 and R6, 30_encoding.md R61).
Every quantity is unsigned; there is no signed value anywhere (R6).
-/

namespace Sys2Proof

/-- A memory cell, a general register, a timer, an `NN` immediate: 8 bits (R4, R61). -/
abbrev Byte := BitVec 8

/-- An opcode, PC, I, a stack entry: 16 bits (R4, R60). -/
abbrev Word := BitVec 16

/-- An `X` or `Y` field: the 4-bit number of a general register (R61, 10_state.md R10). -/
abbrev Reg := BitVec 4

/-- An `N` immediate: 4 bits (R61). -/
abbrev Nibble := BitVec 4

/-- An `NNN` immediate: a 12-bit address (R61). -/
abbrev Addr := BitVec 12

end Sys2Proof
end

