-- ==== Sys2Proof/Syntax.lean ====
section
/-!
DEFINITION. The instruction set: one constructor per row of spec/opcode_table.json, in the table's order (30_encoding.md R62).
Operand types are exactly the fields of R61, so every term is an instruction of the machine.
-/

namespace Sys2Proof

/-- The 34 patterns of 30_encoding.md R62; the set is closed (R1, R66). -/
inductive Instr where
  /-- 00E0 `CLS` (R84) -/
  | cls
  /-- 00EE `RET` (R90) -/
  | ret
  /-- 1NNN `JP addr` (R91) -/
  | jp (nnn : Addr)
  /-- 2NNN `CALL addr` (R92) -/
  | call (nnn : Addr)
  /-- 3XNN `SE Vx,byte` (R93) -/
  | seByte (x : Reg) (nn : Byte)
  /-- 4XNN `SNE Vx,byte` (R94) -/
  | sneByte (x : Reg) (nn : Byte)
  /-- 5XY0 `SE Vx,Vy` (R95) -/
  | seReg (x y : Reg)
  /-- 6XNN `LD Vx,byte` (R105) -/
  | ldByte (x : Reg) (nn : Byte)
  /-- 7XNN `ADD Vx,byte` (R106) -/
  | addByte (x : Reg) (nn : Byte)
  /-- 8XY0 `LD Vx,Vy` (R107) -/
  | ldReg (x y : Reg)
  /-- 8XY1 `OR Vx,Vy` (R108) -/
  | orReg (x y : Reg)
  /-- 8XY2 `AND Vx,Vy` (R109) -/
  | andReg (x y : Reg)
  /-- 8XY3 `XOR Vx,Vy` (R110) -/
  | xorReg (x y : Reg)
  /-- 8XY4 `ADD Vx,Vy` (R111) -/
  | addReg (x y : Reg)
  /-- 8XY5 `SUB Vx,Vy` (R112) -/
  | subReg (x y : Reg)
  /-- 8XY6 `SHR Vx`; `y` is encoded and takes no part in the operation (R67, R113) -/
  | shr (x y : Reg)
  /-- 8XY7 `SUBN Vx,Vy` (R114) -/
  | subnReg (x y : Reg)
  /-- 8XYE `SHL Vx`; `y` is encoded and takes no part in the operation (R67, R115) -/
  | shl (x y : Reg)
  /-- 9XY0 `SNE Vx,Vy` (R96) -/
  | sneReg (x y : Reg)
  /-- ANNN `LD I,addr` (R125) -/
  | ldI (nnn : Addr)
  /-- BNNN `JP V0,addr` (R97) -/
  | jpV0 (nnn : Addr)
  /-- CXNN `RND Vx,byte` (R116) -/
  | rnd (x : Reg) (nn : Byte)
  /-- DXYN `DRW Vx,Vy,nibble` (R85) -/
  | drw (x y : Reg) (n : Nibble)
  /-- EX9E `SKP Vx` (R135) -/
  | skp (x : Reg)
  /-- EXA1 `SKNP Vx` (R136) -/
  | sknp (x : Reg)
  /-- FX07 `LD Vx,DT` (R137) -/
  | ldVxDt (x : Reg)
  /-- FX0A `LD Vx,K` (R138) -/
  | ldVxK (x : Reg)
  /-- FX15 `LD DT,Vx` (R139) -/
  | ldDtVx (x : Reg)
  /-- FX18 `LD ST,Vx` (R140) -/
  | ldStVx (x : Reg)
  /-- FX1E `ADD I,Vx` (R126) -/
  | addI (x : Reg)
  /-- FX29 `LD F,Vx` (R127) -/
  | ldF (x : Reg)
  /-- FX33 `LD B,Vx` (R128) -/
  | ldB (x : Reg)
  /-- FX55 `LD [I],Vx` (R129) -/
  | storeRegs (x : Reg)
  /-- FX65 `LD Vx,[I]` (R130) -/
  | loadRegs (x : Reg)
  deriving DecidableEq, Repr

end Sys2Proof
end

