-- ==== Sys2Proof/WellFormed.lean ====
section
/-!
DEFINITION. Which 16-bit words are instructions: the 34 rows of 30_encoding.md R62 as mask and match pairs, and the check
that a word, or a byte string, holds one. Operand types carry the bounds of R61, so a term of `Instr` has nothing left to
check but the row its word falls in; what can be ill formed is a word or a byte string.
-/

namespace Sys2Proof

/-- A row of the opcode map: a word `op` selects it when `op &&& mask = bits` (30_encoding.md R62). -/
structure OpRow where
  /-- The pattern, the source's name of the row. -/
  pattern : String
  /-- The positions the pattern fixes. -/
  mask : Word
  /-- The values at the fixed positions; 0 elsewhere (the table's "match"). -/
  bits : Word
  deriving DecidableEq, Repr

/-- `op & mask = match` (R62). -/
def OpRow.selects (r : OpRow) (op : Word) : Bool := op &&& r.mask == r.bits

/-- Rows 1 to 9 of R62. -/
def rowsFlow : List OpRow :=
  [ ⟨"00E0", 0xFFFF, 0x00E0⟩,
    ⟨"00EE", 0xFFFF, 0x00EE⟩,
    ⟨"1NNN", 0xF000, 0x1000⟩,
    ⟨"2NNN", 0xF000, 0x2000⟩,
    ⟨"3XNN", 0xF000, 0x3000⟩,
    ⟨"4XNN", 0xF000, 0x4000⟩,
    ⟨"5XY0", 0xF00F, 0x5000⟩,
    ⟨"6XNN", 0xF000, 0x6000⟩,
    ⟨"7XNN", 0xF000, 0x7000⟩ ]

/-- Rows 10 to 19 of R62. -/
def rowsAlu : List OpRow :=
  [ ⟨"8XY0", 0xF00F, 0x8000⟩,
    ⟨"8XY1", 0xF00F, 0x8001⟩,
    ⟨"8XY2", 0xF00F, 0x8002⟩,
    ⟨"8XY3", 0xF00F, 0x8003⟩,
    ⟨"8XY4", 0xF00F, 0x8004⟩,
    ⟨"8XY5", 0xF00F, 0x8005⟩,
    ⟨"8XY6", 0xF00F, 0x8006⟩,
    ⟨"8XY7", 0xF00F, 0x8007⟩,
    ⟨"8XYE", 0xF00F, 0x800E⟩,
    ⟨"9XY0", 0xF00F, 0x9000⟩ ]

/-- Rows 20 to 25 of R62. -/
def rowsIndex : List OpRow :=
  [ ⟨"ANNN", 0xF000, 0xA000⟩,
    ⟨"BNNN", 0xF000, 0xB000⟩,
    ⟨"CXNN", 0xF000, 0xC000⟩,
    ⟨"DXYN", 0xF000, 0xD000⟩,
    ⟨"EX9E", 0xF0FF, 0xE09E⟩,
    ⟨"EXA1", 0xF0FF, 0xE0A1⟩ ]

/-- Rows 26 to 34 of R62. -/
def rowsMisc : List OpRow :=
  [ ⟨"FX07", 0xF0FF, 0xF007⟩,
    ⟨"FX0A", 0xF0FF, 0xF00A⟩,
    ⟨"FX15", 0xF0FF, 0xF015⟩,
    ⟨"FX18", 0xF0FF, 0xF018⟩,
    ⟨"FX1E", 0xF0FF, 0xF01E⟩,
    ⟨"FX29", 0xF0FF, 0xF029⟩,
    ⟨"FX33", 0xF0FF, 0xF033⟩,
    ⟨"FX55", 0xF0FF, 0xF055⟩,
    ⟨"FX65", 0xF0FF, 0xF065⟩ ]

/-- The opcode map, 34 rows (R62). -/
def opcodeTable : List OpRow := rowsFlow ++ rowsAlu ++ rowsIndex ++ rowsMisc

/-- The word is one of the 34 instructions; every other word is unrecognized (R62, R65). -/
def wellFormedWord (op : Word) : Bool := opcodeTable.any fun r => r.selects op

/-- The byte string begins with an instruction: two bytes, the high one first (R60, 20_memory.md R46). -/
def wellFormedBytes : List Byte → Bool
  | hi :: lo :: _ => wellFormedWord (hi ++ lo)
  | _ => false

/-- The row of the opcode map an instruction belongs to (R62). -/
def Instr.row : Instr → OpRow
  | .cls => ⟨"00E0", 0xFFFF, 0x00E0⟩
  | .ret => ⟨"00EE", 0xFFFF, 0x00EE⟩
  | .jp _ => ⟨"1NNN", 0xF000, 0x1000⟩
  | .call _ => ⟨"2NNN", 0xF000, 0x2000⟩
  | .seByte _ _ => ⟨"3XNN", 0xF000, 0x3000⟩
  | .sneByte _ _ => ⟨"4XNN", 0xF000, 0x4000⟩
  | .seReg _ _ => ⟨"5XY0", 0xF00F, 0x5000⟩
  | .ldByte _ _ => ⟨"6XNN", 0xF000, 0x6000⟩
  | .addByte _ _ => ⟨"7XNN", 0xF000, 0x7000⟩
  | .ldReg _ _ => ⟨"8XY0", 0xF00F, 0x8000⟩
  | .orReg _ _ => ⟨"8XY1", 0xF00F, 0x8001⟩
  | .andReg _ _ => ⟨"8XY2", 0xF00F, 0x8002⟩
  | .xorReg _ _ => ⟨"8XY3", 0xF00F, 0x8003⟩
  | .addReg _ _ => ⟨"8XY4", 0xF00F, 0x8004⟩
  | .subReg _ _ => ⟨"8XY5", 0xF00F, 0x8005⟩
  | .shr _ _ => ⟨"8XY6", 0xF00F, 0x8006⟩
  | .subnReg _ _ => ⟨"8XY7", 0xF00F, 0x8007⟩
  | .shl _ _ => ⟨"8XYE", 0xF00F, 0x800E⟩
  | .sneReg _ _ => ⟨"9XY0", 0xF00F, 0x9000⟩
  | .ldI _ => ⟨"ANNN", 0xF000, 0xA000⟩
  | .jpV0 _ => ⟨"BNNN", 0xF000, 0xB000⟩
  | .rnd _ _ => ⟨"CXNN", 0xF000, 0xC000⟩
  | .drw _ _ _ => ⟨"DXYN", 0xF000, 0xD000⟩
  | .skp _ => ⟨"EX9E", 0xF0FF, 0xE09E⟩
  | .sknp _ => ⟨"EXA1", 0xF0FF, 0xE0A1⟩
  | .ldVxDt _ => ⟨"FX07", 0xF0FF, 0xF007⟩
  | .ldVxK _ => ⟨"FX0A", 0xF0FF, 0xF00A⟩
  | .ldDtVx _ => ⟨"FX15", 0xF0FF, 0xF015⟩
  | .ldStVx _ => ⟨"FX18", 0xF0FF, 0xF018⟩
  | .addI _ => ⟨"FX1E", 0xF0FF, 0xF01E⟩
  | .ldF _ => ⟨"FX29", 0xF0FF, 0xF029⟩
  | .ldB _ => ⟨"FX33", 0xF0FF, 0xF033⟩
  | .storeRegs _ => ⟨"FX55", 0xF0FF, 0xF055⟩
  | .loadRegs _ => ⟨"FX65", 0xF0FF, 0xF065⟩

end Sys2Proof
end

