-- ==== Sys2Proof/Decode.lean ====
section
/-!
DEFINITION. Decode and encode (30_encoding.md R60 to R68): the fields of R61, the decision procedure of R64, the fetch
order of 20_memory.md R46, and the encoder written from the layouts of R61 and R62.
-/

namespace Sys2Proof

/-- Why bytes hold no instruction. -/
inductive DecodeError where
  /-- The word matches none of the 34 patterns: `Fatal(UnrecognizedOpcode)` when it is fetched (R65). -/
  | unrecognized (op : Word)
  /-- Fewer than two bytes: no opcode at all (R60). -/
  | truncated
  deriving DecidableEq, Repr

/-- The leading nibble `a = op[15:12]` (R61). -/
def opA (op : Word) : Nibble := op.extractLsb' 12 4

/-- The field `X = op[11:8]` (R61). -/
def opX (op : Word) : Reg := op.extractLsb' 8 4

/-- The field `Y = op[7:4]` (R61). -/
def opY (op : Word) : Reg := op.extractLsb' 4 4

/-- The field `N = op[3:0]` (R61). -/
def opN (op : Word) : Nibble := op.extractLsb' 0 4

/-- The field `NN = op[7:0]` (R61). -/
def opNN (op : Word) : Byte := op.extractLsb' 0 8

/-- The field `NNN = op[11:0]` (R61). -/
def opNNN (op : Word) : Addr := op.extractLsb' 0 12

/-- Leading nibble 0: the whole word is compared (R64). -/
def decode0 (op : Word) : Except DecodeError Instr :=
  if op = 0x00E0 then .ok .cls
  else if op = 0x00EE then .ok .ret
  else .error (.unrecognized op)

/-- Leading nibble 8: the function nibble N selects (R64). -/
def decode8 (op : Word) : Except DecodeError Instr :=
  if opN op = 0x0 then .ok (.ldReg (opX op) (opY op))
  else if opN op = 0x1 then .ok (.orReg (opX op) (opY op))
  else if opN op = 0x2 then .ok (.andReg (opX op) (opY op))
  else if opN op = 0x3 then .ok (.xorReg (opX op) (opY op))
  else if opN op = 0x4 then .ok (.addReg (opX op) (opY op))
  else if opN op = 0x5 then .ok (.subReg (opX op) (opY op))
  else if opN op = 0x6 then .ok (.shr (opX op) (opY op))
  else if opN op = 0x7 then .ok (.subnReg (opX op) (opY op))
  else if opN op = 0xE then .ok (.shl (opX op) (opY op))
  else .error (.unrecognized op)

/-- Leading nibble E: the function byte NN selects (R64). -/
def decodeE (op : Word) : Except DecodeError Instr :=
  if opNN op = 0x9E then .ok (.skp (opX op))
  else if opNN op = 0xA1 then .ok (.sknp (opX op))
  else .error (.unrecognized op)

/-- Leading nibble F: the function byte NN selects (R64). -/
def decodeF (op : Word) : Except DecodeError Instr :=
  if opNN op = 0x07 then .ok (.ldVxDt (opX op))
  else if opNN op = 0x0A then .ok (.ldVxK (opX op))
  else if opNN op = 0x15 then .ok (.ldDtVx (opX op))
  else if opNN op = 0x18 then .ok (.ldStVx (opX op))
  else if opNN op = 0x1E then .ok (.addI (opX op))
  else if opNN op = 0x29 then .ok (.ldF (opX op))
  else if opNN op = 0x33 then .ok (.ldB (opX op))
  else if opNN op = 0x55 then .ok (.storeRegs (opX op))
  else if opNN op = 0x65 then .ok (.loadRegs (opX op))
  else .error (.unrecognized op)

/-- `Decode(op)`, the decision procedure of R64; it reads nothing but the word. -/
def decode (op : Word) : Except DecodeError Instr :=
  if opA op = 0x0 then decode0 op
  else if opA op = 0x1 then .ok (.jp (opNNN op))
  else if opA op = 0x2 then .ok (.call (opNNN op))
  else if opA op = 0x3 then .ok (.seByte (opX op) (opNN op))
  else if opA op = 0x4 then .ok (.sneByte (opX op) (opNN op))
  else if opA op = 0x5 then
    if opN op = 0x0 then .ok (.seReg (opX op) (opY op)) else .error (.unrecognized op)
  else if opA op = 0x6 then .ok (.ldByte (opX op) (opNN op))
  else if opA op = 0x7 then .ok (.addByte (opX op) (opNN op))
  else if opA op = 0x8 then decode8 op
  else if opA op = 0x9 then
    if opN op = 0x0 then .ok (.sneReg (opX op) (opY op)) else .error (.unrecognized op)
  else if opA op = 0xA then .ok (.ldI (opNNN op))
  else if opA op = 0xB then .ok (.jpV0 (opNNN op))
  else if opA op = 0xC then .ok (.rnd (opX op) (opNN op))
  else if opA op = 0xD then .ok (.drw (opX op) (opY op) (opN op))
  else if opA op = 0xE then decodeE op
  else decodeF op

/-- The opcode in two bytes, the one at the lower address the high byte (20_memory.md R46). -/
def opcodeOf (hi lo : Byte) : Word := hi ++ lo

/-- The instruction at the head of a byte string, with the bytes after it; every string gets an answer (R60, R64). -/
def decodeBytes : List Byte → Except DecodeError (Instr × List Byte)
  | hi :: lo :: rest =>
    match decode (opcodeOf hi lo) with
    | .ok i => .ok (i, rest)
    | .error e => .error e
  | _ => .error .truncated

/-- The word of an instruction, its fields placed as R61 and R62 lay them out. -/
def encode : Instr → Word
  | .cls => 0x00E0#16
  | .ret => 0x00EE#16
  | .jp nnn => 0x1#4 ++ nnn
  | .call nnn => 0x2#4 ++ nnn
  | .seByte x nn => (0x3#4 ++ x) ++ nn
  | .sneByte x nn => (0x4#4 ++ x) ++ nn
  | .seReg x y => (0x5#4 ++ x) ++ (y ++ 0x0#4)
  | .ldByte x nn => (0x6#4 ++ x) ++ nn
  | .addByte x nn => (0x7#4 ++ x) ++ nn
  | .ldReg x y => (0x8#4 ++ x) ++ (y ++ 0x0#4)
  | .orReg x y => (0x8#4 ++ x) ++ (y ++ 0x1#4)
  | .andReg x y => (0x8#4 ++ x) ++ (y ++ 0x2#4)
  | .xorReg x y => (0x8#4 ++ x) ++ (y ++ 0x3#4)
  | .addReg x y => (0x8#4 ++ x) ++ (y ++ 0x4#4)
  | .subReg x y => (0x8#4 ++ x) ++ (y ++ 0x5#4)
  | .shr x y => (0x8#4 ++ x) ++ (y ++ 0x6#4)
  | .subnReg x y => (0x8#4 ++ x) ++ (y ++ 0x7#4)
  | .shl x y => (0x8#4 ++ x) ++ (y ++ 0xE#4)
  | .sneReg x y => (0x9#4 ++ x) ++ (y ++ 0x0#4)
  | .ldI nnn => 0xA#4 ++ nnn
  | .jpV0 nnn => 0xB#4 ++ nnn
  | .rnd x nn => (0xC#4 ++ x) ++ nn
  | .drw x y n => (0xD#4 ++ x) ++ (y ++ n)
  | .skp x => (0xE#4 ++ x) ++ 0x9E#8
  | .sknp x => (0xE#4 ++ x) ++ 0xA1#8
  | .ldVxDt x => (0xF#4 ++ x) ++ 0x07#8
  | .ldVxK x => (0xF#4 ++ x) ++ 0x0A#8
  | .ldDtVx x => (0xF#4 ++ x) ++ 0x15#8
  | .ldStVx x => (0xF#4 ++ x) ++ 0x18#8
  | .addI x => (0xF#4 ++ x) ++ 0x1E#8
  | .ldF x => (0xF#4 ++ x) ++ 0x29#8
  | .ldB x => (0xF#4 ++ x) ++ 0x33#8
  | .storeRegs x => (0xF#4 ++ x) ++ 0x55#8
  | .loadRegs x => (0xF#4 ++ x) ++ 0x65#8

/-- The two bytes of an instruction in memory order, high byte first (R60, 20_memory.md R46). -/
def encodeBytes (i : Instr) : List Byte := [(encode i).extractLsb' 8 8, (encode i).extractLsb' 0 8]

/-- The instruction's word falls in a row of the opcode map (R62). -/
def Instr.wellFormed (i : Instr) : Bool := wellFormedWord (encode i)

/-- The low `nbits` bits of `w`, every bit above them 0, as one 16-bit instruction word. -/
def tableWord (nbits w : Nat) : Word := BitVec.ofNat 16 (w % 2 ^ nbits)

/-- What the decoder reads from an instruction whose bits are `w`, numbered as the opcode table numbers them, laid out as
the machine stores it: bits 15 to 8 in the first byte, bits 7 to 0 in the second (20_memory.md R46). -/
def decodeTableWord (nbits w : Nat) : Option Instr :=
  match decodeBytes [(tableWord nbits w).extractLsb' 8 8, (tableWord nbits w).extractLsb' 0 8] with
  | .ok (i, _) => some i
  | .error _ => none

end Sys2Proof
end

