-- ==== Sys2Proof/Config.lean ====
section
/-!
DEFINITION. The fixed parameters of the machine (00_scope.md R4) and the free values the spec leaves to an external
sequence or choice (00_scope.md R5: `rnd` and `KEY_SELECT`).
-/

namespace Sys2Proof.Config

/-- MEM_SIZE: 4096 bytes, addresses 0x000 to 0xFFF (R4). -/
def memSize : Nat := 0x1000

/-- The largest value PC may take (R4, 10_state.md R13). -/
def pcMax : Nat := 0xFFE

/-- PC_RESET (R4). -/
def pcReset : Word := 0x200

/-- PROG_BASE, the load address (R4). -/
def progBase : Nat := 0x200

/-- PROG_MAX, the longest program: 4096 - 0x200 bytes (R4). -/
def progMax : Nat := 3584

/-- STACK_DEPTH (R4). -/
def stackDepth : Nat := 16

/-- FONT_BASE (R4). -/
def fontBase : Nat := 0x000

/-- FONT_GLYPH_BYTES (R4). -/
def glyphBytes : Nat := 5

/-- The random bytes, in the order CXNN consumes them: an input of the run under no law (42_alu.md R116,
10_state.md R30). A FREE VALUE with no body: log 5. -/
opaque rnd : Nat → Byte

/-- The free choice behind `KEY_SELECT` (44_keypad_timers.md R138): for the n-th completed key wait and the keypad it
saw, a number that selects one of the pressed keys. A FREE VALUE with no body: log 6. -/
opaque keyChoice : Nat → BitVec 16 → Nat

end Sys2Proof.Config
end

