-- ==== Sys2Proof/Machine/State.lean ====
section
/-!
DEFINITION. The state of the machine as plain data (10_state.md section 1, R10 to R22), the reasons a step could stop, and
the state after reset (10_state.md R32).
-/

namespace Sys2Proof.Machine

/-- The four fatal conditions (60_exceptions.md R150). -/
inductive Cause where
  /-- 2NNN with SP = 16 (R151). -/
  | stackOverflow
  /-- 00EE with SP = 0 (R152). -/
  | stackUnderflow
  /-- A fetched word matching none of the 34 patterns (R153). -/
  | unrecognizedOpcode
  /-- An access with an index outside the thing indexed (R154). -/
  | outOfRangeAccess
  deriving DecidableEq, Repr

/-- What a fatal condition records (60_exceptions.md R155). -/
structure Diagnostic where
  /-- `cause`. -/
  cause : Cause
  /-- `diag_opcode`: the word fetched in the offending cycle. -/
  opcode : Word
  /-- `diag_pc`: the address it was fetched from. -/
  pc : Word
  deriving DecidableEq, Repr

/-- The memory's cells that differ from the reset contents, as address and byte pairs, addresses strictly rising
(10_state.md R18, 20_memory.md R40, R41). -/
abbrev Memory := List Host.Cell

/-- `FB[y][x]`: 32 rows of 64 pixels, true when set (10_state.md R19). -/
abbrev Framebuffer := Vector (Vector Bool 64) 32

/-- Everything the machine remembers from one cycle to the next (10_state.md section 1), and the two counters of the free
values (logs 5 and 6). -/
structure State where
  /-- V0 to VF (R10, R11). -/
  v : Vector Byte 16
  /-- The index register I (R12). -/
  i : Word
  /-- The program counter (R13). -/
  pc : Word
  /-- The live stack entries S[0], S[1], ..., S[SP-1], oldest first; SP is the length (R14). -/
  stack : List Word
  /-- The delay timer DT (R15). -/
  dt : Byte
  /-- The sound timer ST (R16). -/
  st : Byte
  /-- The keypad: bit k is K[k], 1 while hex key k is pressed; written by the host alone (R17, R30). -/
  keys : BitVec 16
  /-- Memory M (R18). -/
  mem : Memory
  /-- The framebuffer FB (R19). -/
  fb : Framebuffer
  /-- A repaint is owed (R20). -/
  dirty : Bool
  /-- The opcode latch IR (R21). -/
  ir : Word
  /-- `halted` with its `cause`, `diag_opcode` and `diag_pc`, which are valid while it is 1 (R22): none is halted = 0. -/
  fatal : Option Diagnostic
  /-- MODEL's own: how many elements of the input sequence `rnd` CXNN has consumed (R30, log 5). -/
  rndIndex : Nat
  /-- MODEL's own: how many key choices FX0A has made (44_keypad_timers.md R138, log 6). -/
  keyDraws : Nat
  deriving DecidableEq, Repr

/-- Reasons a step stops with no next state. There is none: every fatal condition of the spec is an entry into the halted
state, which is a next state (60_exceptions.md R156, log 1), so nothing raises a fault. -/
inductive Fault where
  deriving DecidableEq, Repr

/-- Reasons a step gives an instruction no meaning. -/
inductive Refusal where
  /-- Raised by `exec` for an instruction that has no meaning yet; no arm uses it now. Safe: the machine stops. -/
  | notModelled (mnemonic : String)
  deriving DecidableEq, Repr

/-- The state after `reset` (10_state.md R32): PC = 0x200, the stack empty, the timers 0, memory at its reset contents (no
cell differs from them), not halted; V, I, the keypad, the framebuffer, `dirty` and IR are 0 by the spec's decisions D2
and D3 (logs 2 and 3). -/
def State.reset : State where
  v := Vector.replicate 16 0
  i := 0
  pc := Config.pcReset
  stack := []
  dt := 0
  st := 0
  keys := 0
  mem := []
  fb := Vector.replicate 32 (Vector.replicate 64 false)
  dirty := false
  ir := 0
  fatal := none
  rndIndex := 0
  keyDraws := 0

end Sys2Proof.Machine
end

