-- ==== Sys2Proof/Machine/Ops.lean ====
section
/-!
DEFINITION. The named operations over memory, registers, PC, the stack and the timers, and fatal entry, which every
instruction's meaning is made of.
-/

namespace Sys2Proof.Machine

open Host (Outcome)

/-! ## Reset contents of memory -/

/-- FONT, glyphs 0 to 7 (70_reset_and_hazards.md R171). PRESUMED values: log 4. -/
def fontLow : List Byte :=
  [ 0xF0, 0x90, 0x90, 0x90, 0xF0,
    0x20, 0x60, 0x20, 0x20, 0x70,
    0xF0, 0x10, 0xF0, 0x80, 0xF0,
    0xF0, 0x10, 0xF0, 0x10, 0xF0,
    0x90, 0x90, 0xF0, 0x10, 0x10,
    0xF0, 0x80, 0xF0, 0x10, 0xF0,
    0xF0, 0x80, 0xF0, 0x90, 0xF0,
    0xF0, 0x10, 0x20, 0x40, 0x40 ]

/-- FONT, glyphs 8 to F (70_reset_and_hazards.md R171). PRESUMED values: log 4. -/
def fontHigh : List Byte :=
  [ 0xF0, 0x90, 0xF0, 0x90, 0xF0,
    0xF0, 0x90, 0xF0, 0x10, 0xF0,
    0xF0, 0x90, 0xF0, 0x90, 0x90,
    0xE0, 0x90, 0xE0, 0x90, 0xE0,
    0xF0, 0x80, 0x80, 0x80, 0xF0,
    0xE0, 0x90, 0x90, 0x90, 0xE0,
    0xF0, 0x80, 0xF0, 0x80, 0xF0,
    0xF0, 0x80, 0xF0, 0x80, 0x80 ]

/-- The parameter FONT: 80 bytes, 5 per hex digit, copied to 0x000 at reset (20_memory.md R41, R171). -/
def font : List Byte := fontLow ++ fontHigh

/-- What an unlisted address reads as, the reset contents: the font from 0x000 to 0x04F and 0x00 elsewhere
(10_state.md R32, 20_memory.md R41). -/
def initialByte (a : Nat) : Byte := (font[a]?).getD 0

/-! ## Memory -/

/-- The listed byte at an address, if one is listed. -/
def memLookup : Memory → Nat → Option Byte
  | [], _ => none
  | (k, b) :: m, a => if k = a then some b else memLookup m a

/-- The cell `M[a]`: the last value written, or the reset contents (20_memory.md R43, R49). -/
def memGet (m : Memory) (a : Nat) : Byte := (memLookup m a).getD (initialByte a)

/-- Lists a byte at an address, in place of the one listed there. -/
def memInsert (a : Nat) (b : Byte) : Memory → Memory
  | [] => [(a, b)]
  | (k, c) :: m =>
    if a < k then (a, b) :: (k, c) :: m
    else if a = k then (a, b) :: m
    else (k, c) :: memInsert a b m

/-- Unlists an address. -/
def memRemove (a : Nat) : Memory → Memory
  | [] => []
  | (k, c) :: m => if k = a then memRemove a m else (k, c) :: memRemove a m

/-- `M[a] <- b` (20_memory.md R44), in the canonical form. -/
def memSet (m : Memory) (a : Nat) (b : Byte) : Memory :=
  if b = initialByte a then memRemove a m else memInsert a b m

/-- The canonical form, all addresses at least `lo`. -/
def memWfFrom : Nat → Memory → Bool
  | _, [] => true
  | lo, (k, b) :: m => decide (lo ≤ k) && decide (k < Config.memSize) && decide (b ≠ initialByte k) && memWfFrom (k + 1) m

/-- The canonical form: addresses strictly rising and below 4096, no byte equal to the reset contents. -/
def Memory.wf (m : Memory) : Bool := memWfFrom 0 m

/-- `MemRead(addr, 1)`: above 0xFFF it raises `OutOfRangeAccess`; addresses never wrap (20_memory.md R43). -/
def memRead (m : Memory) (a : Nat) : Except Cause Byte :=
  if a < Config.memSize then .ok (memGet m a) else .error .outOfRangeAccess

/-- `n` cells at ascending addresses from `a` (20_memory.md R45, R47). -/
def memGetN (m : Memory) (a : Nat) : Nat → List Byte
  | 0 => []
  | n + 1 => memGet m a :: memGetN m (a + 1) n

/-- Bytes stored at ascending addresses from `a` (20_memory.md R45, R47). -/
def memSetN (m : Memory) (a : Nat) : List Byte → Memory
  | [] => m
  | b :: bs => memSetN (memSet m a b) (a + 1) bs

/-- The `n` bytes from `a` lie in memory; no bytes lie anywhere (43_index_memory.md R132, 40_display.md R85). -/
def rangeOk (a n : Nat) : Bool := n == 0 || decide (a + n ≤ Config.memSize)

/-- Reads `n` bytes from `a`, all addresses checked first (43_index_memory.md R132). -/
def memReadN (m : Memory) (a n : Nat) : Except Cause (List Byte) :=
  if rangeOk a n then .ok (memGetN m a n) else .error .outOfRangeAccess

/-- Writes bytes from `a`, all addresses checked before any write (20_memory.md R44, 43_index_memory.md R132). -/
def memWriteN (m : Memory) (a : Nat) (bs : List Byte) : Except Cause Memory :=
  if rangeOk a bs.length then .ok (memSetN m a bs) else .error .outOfRangeAccess

/-! ## Registers -/

/-- `V[x]` (10_state.md R10). -/
def State.getV (s : State) (x : Reg) : Byte := s.v[x.toNat]'(x.isLt)

/-- `V[x] <- b`; no other register changes (10_state.md R10). -/
def State.setV (s : State) (x : Reg) (b : Byte) : State := { s with v := s.v.set x.toNat b x.isLt }

/-- The number of VF (10_state.md R11). -/
def regF : Reg := 0xF

/-- `I <- w` (10_state.md R12). -/
def State.setI (s : State) (w : Word) : State := { s with i := w }

/-- `PC <- w` (10_state.md R13). -/
def State.setPc (s : State) (w : Word) : State := { s with pc := w }

/-- `DT <- b` (10_state.md R15). -/
def State.setDt (s : State) (b : Byte) : State := { s with dt := b }

/-- `ST <- b` (10_state.md R16). -/
def State.setSt (s : State) (b : Byte) : State := { s with st := b }

/-- Memory replaced by a written one. -/
def State.setMem (s : State) (m : Memory) : State := { s with mem := m }

/-- `IR <- w` (10_state.md R21). -/
def State.setIr (s : State) (w : Word) : State := { s with ir := w }

/-- `V[k] <- bs[0]`, `V[k+1] <- bs[1]`, and so on (43_index_memory.md R130). -/
def regsSetN (v : Vector Byte 16) (k : Nat) : List Byte → Vector Byte 16
  | [] => v
  | b :: bs => regsSetN (v.setIfInBounds k b) (k + 1) bs

/-- The registers loaded from V0 upward with a byte string. -/
def State.setRegs (s : State) (bs : List Byte) : State := { s with v := regsSetN s.v 0 bs }

/-- `V[0], V[1], ..., V[x]`, x + 1 bytes (43_index_memory.md R129). -/
def State.regsUpTo (s : State) (x : Reg) : List Byte := s.v.toList.take (x.toNat + 1)

/-! ## Stack -/

/-- SP, the number of live entries (10_state.md R14). -/
def State.sp (s : State) : Nat := s.stack.length

/-- `S[SP] <- w; SP <- SP + 1` (41_control_flow.md R92). -/
def State.push (s : State) (w : Word) : State := { s with stack := s.stack ++ [w] }

/-- `S[SP - 1]`, none when SP = 0 (41_control_flow.md R90). -/
def State.top (s : State) : Option Word := s.stack.getLast?

/-- `SP <- SP - 1` (41_control_flow.md R90). -/
def State.pop (s : State) : State := { s with stack := s.stack.dropLast }

/-! ## Fatal conditions -/

/-- The code of a fatal condition (60_exceptions.md R150). -/
def Cause.code : Cause → Nat
  | .stackOverflow => 1
  | .stackUnderflow => 2
  | .unrecognizedOpcode => 3
  | .outOfRangeAccess => 4

/-- `halted` (10_state.md R22). -/
def State.halted (s : State) : Bool := s.fatal.isSome

/-- `cause`, valid while halted (10_state.md R22). -/
def State.cause (s : State) : Option Cause := s.fatal.map Diagnostic.cause

/-- `diag_opcode`, valid while halted (10_state.md R22). -/
def State.diagOpcode (s : State) : Option Word := s.fatal.map Diagnostic.opcode

/-- `diag_pc`, valid while halted (10_state.md R22). -/
def State.diagPc (s : State) : Option Word := s.fatal.map Diagnostic.pc

/-- Fatal entry, the machine's one exception: halted, with the cause, IR and PC recorded, and nothing else changed
(60_exceptions.md R155, R156). There is no return from it (R157): only the operation `reset` of Machine/Ports.lean leaves. -/
def fatalEntry (c : Cause) (s : State) : State := { s with fatal := some ⟨c, s.ir, s.pc⟩ }

/-- `raise Fatal(c)` in an instruction begun in state `s`: a next state, none of the instruction's effects in it
(00_scope.md section 5, 60_exceptions.md R156; log 1). -/
def raiseFatal (c : Cause) (s : State) : Outcome State Fault Refusal := .next (fatalEntry c s)

/-! ## Completing an instruction -/

/-- An instruction begun in state `s` completes with effect `s'` and new PC `t`; a new PC above 0xFFE raises
`OutOfRangeAccess` in place of completing (10_state.md R13, R27; 60_exceptions.md R154 cause (f)). -/
def completeAt (s s' : State) (t : Nat) : Outcome State Fault Refusal :=
  if t ≤ Config.pcMax then .next (s'.setPc (BitVec.ofNat 16 t)) else raiseFatal .outOfRangeAccess s

/-- `PC <- PC + 2` after the effect `s'` (10_state.md R27). -/
def advance (s s' : State) : Outcome State Fault Refusal := completeAt s s' (s.pc.toNat + 2)

/-- `PC <- PC + 4` if the condition holds, else `PC <- PC + 2`; nothing but PC is written (41_control_flow.md R98). -/
def skipIf (cond : Bool) (s : State) : Outcome State Fault Refusal :=
  completeAt s s (if cond then s.pc.toNat + 4 else s.pc.toNat + 2)

/-! ## Timers -/

/-- One timer, decremented toward 0 and never below (60_exceptions.md R162). -/
def tickByte (b : Byte) : Byte := if b = 0 then 0 else b - 1

/-- `TickTimers` (60_exceptions.md R162). -/
def tickTimers (s : State) : State := { s with dt := tickByte s.dt, st := tickByte s.st }

/-- The output `tone_active`: ST > 0 (60_exceptions.md R164). -/
def State.toneActive (s : State) : Bool := decide (s.st ≠ 0)

/-! ## Fetch -/

/-- `MemRead(PC, 2)`: the two bytes at PC and PC + 1, big-endian (20_memory.md R46); an address above 0xFFF raises
`OutOfRangeAccess` (R43), which cannot happen while PC is at most 0xFFE (10_state.md R13, log 17). -/
def fetch (s : State) : Except Cause Word :=
  match memRead s.mem s.pc.toNat, memRead s.mem (s.pc.toNat + 1) with
  | .ok hi, .ok lo => .ok (hi ++ lo)
  | _, _ => .error .outOfRangeAccess

end Sys2Proof.Machine
end

