-- ==== Sys2Proof/Machine/Flags.lean ====
section
/-!
DEFINITION. The values the flag-writing instructions leave in VF, each 0 or 1 (10_state.md R11), and the one operation
that writes a result and then a flag (42_alu.md R118).
-/

namespace Sys2Proof.Machine

/-- A truth value as VF holds it. -/
def flagByte (c : Bool) : Byte := if c then 1 else 0

/-- Carry-out of an 8-bit sum: a + b > 255 (42_alu.md R111, R117). -/
def carryFlag (a b : Byte) : Byte := flagByte (decide (a.toNat + b.toNat > 255))

/-- The inverse of the borrow of a - b: a >= b (42_alu.md R112, R114, R117). -/
def noBorrowFlag (a b : Byte) : Byte := flagByte (decide (a.toNat ≥ b.toNat))

/-- Bit 0, the bit a right shift puts out (42_alu.md R113). -/
def shrFlag (a : Byte) : Byte := flagByte (a.getLsbD 0)

/-- Bit 7, the bit a left shift puts out (42_alu.md R115). -/
def shlFlag (a : Byte) : Byte := flagByte (a.getLsbD 7)

/-- `V[x] <- r; V[15] <- f`: the result first and the flag last, so with x = 15 the flag stays (42_alu.md R118, log 8). -/
def State.setResultFlag (s : State) (x : Reg) (r f : Byte) : State := (s.setV x r).setV regF f

end Sys2Proof.Machine
end

