-- ==== Sys2Proof/Machine/Operands.lean ====
section
/-!
DEFINITION. The operand forms that are more than a register or an immediate read as its bits stand (30_encoding.md R63):
the bytes addressed by I, the keypad entry a register names, the key FX0A reports, glyph addresses, decimal digits,
the index sum and the random byte.
-/

namespace Sys2Proof.Machine

/-- The `n` bytes at I, I + 1, ... (43_index_memory.md, the one addressing mode; R131, R132). -/
def readAtI (s : State) (n : Nat) : Except Cause (List Byte) := memReadN s.mem s.i.toNat n

/-- Bytes stored at I, I + 1, ...; I is unchanged (43_index_memory.md R131, R132). -/
def writeAtI (s : State) (bs : List Byte) : Except Cause State :=
  match memWriteN s.mem s.i.toNat bs with
  | .ok m => .ok (s.setMem m)
  | .error c => .error c

/-- `(I + V[x]) mod 4096` (43_index_memory.md R126). -/
def indexSum (i : Word) (b : Byte) : Word := BitVec.ofNat 16 ((i.toNat + b.toNat) % 4096)

/-- The address of the glyph of a byte's low hexadecimal digit: FONT_BASE + 5 * (b mod 16) (43_index_memory.md R127). -/
def glyphAddress (b : Byte) : Word := BitVec.ofNat 16 (Config.fontBase + Config.glyphBytes * (b.toNat % 16))

/-- Hundreds, tens and units of a byte (43_index_memory.md R128). -/
def decimalDigits (b : Byte) : List Byte :=
  [BitVec.ofNat 8 (b.toNat / 100), BitVec.ofNat 8 (b.toNat / 10 % 10), BitVec.ofNat 8 (b.toNat % 10)]

/-- `K[k]` as sampled for the cycle (10_state.md R17, R30). -/
def State.keyDown (s : State) (k : Nat) : Bool := s.keys.getLsbD k

/-- The keypad entry `V[x]` names; above 15 it raises `OutOfRangeAccess` (44_keypad_timers.md R141). -/
def keyOperand (s : State) (x : Reg) : Except Cause Bool :=
  if (s.getV x).toNat ≤ 15 then .ok (s.keyDown (s.getV x).toNat) else .error .outOfRangeAccess

/-- The pressed keys, in rising order. -/
def pressedKeys (keys : BitVec 16) : List Nat := (List.range 16).filter fun k => keys.getLsbD k

/-- `KEY_SELECT(keys)`: a pressed key, which one left to the choice `c` (44_keypad_timers.md R138, log 6). -/
def selectKey (c : Nat) (keys : BitVec 16) : Nat := (pressedKeys keys).getD (c % (pressedKeys keys).length) 0

/-- The key a completing FX0A reports; the choice is a free value (44_keypad_timers.md R138). -/
def State.reportedKey (s : State) : Nat := selectKey (Config.keyChoice s.keyDraws s.keys) s.keys

/-- The choice has been made. -/
def State.drawKey (s : State) : State := { s with keyDraws := s.keyDraws + 1 }

/-- `rnd`, the random byte this CXNN reads: a free value (42_alu.md R116, 10_state.md R30). -/
def State.randomByte (s : State) : Byte := Config.rnd s.rndIndex

/-- One element of the random sequence is consumed (10_state.md R30). -/
def State.drawRandom (s : State) : State := { s with rndIndex := s.rndIndex + 1 }

end Sys2Proof.Machine
end

