-- ==== Sys2Proof/Machine/Alu.lean ====
section
/-!
DEFINITION. The register, arithmetic, logic, shift and random family (42_alu.md R105 to R119). Operands are read from the
state the instruction began in (R119); results are modulo 256 (R117).
-/

namespace Sys2Proof.Machine

open Host (Outcome)

/-- 6XNN LD Vx,byte (R105). -/
def execLdByte (x : Reg) (nn : Byte) (s : State) : Outcome State Fault Refusal := advance s (s.setV x nn)

/-- 7XNN ADD Vx,byte: no flag (R106). -/
def execAddByte (x : Reg) (nn : Byte) (s : State) : Outcome State Fault Refusal := advance s (s.setV x (s.getV x + nn))

/-- 8XY0 LD Vx,Vy (R107). -/
def execLdReg (x y : Reg) (s : State) : Outcome State Fault Refusal := advance s (s.setV x (s.getV y))

/-- 8XY1 OR Vx,Vy: no flag (R108). -/
def execOrReg (x y : Reg) (s : State) : Outcome State Fault Refusal := advance s (s.setV x (s.getV x ||| s.getV y))

/-- 8XY2 AND Vx,Vy: no flag (R109). -/
def execAndReg (x y : Reg) (s : State) : Outcome State Fault Refusal := advance s (s.setV x (s.getV x &&& s.getV y))

/-- 8XY3 XOR Vx,Vy: no flag (R110). -/
def execXorReg (x y : Reg) (s : State) : Outcome State Fault Refusal := advance s (s.setV x (s.getV x ^^^ s.getV y))

/-- 8XY4 ADD Vx,Vy: VF = carry-out (R111). -/
def execAddReg (x y : Reg) (s : State) : Outcome State Fault Refusal :=
  advance s (s.setResultFlag x (s.getV x + s.getV y) (carryFlag (s.getV x) (s.getV y)))

/-- 8XY5 SUB Vx,Vy: VF = no borrow of Vx - Vy (R112). -/
def execSubReg (x y : Reg) (s : State) : Outcome State Fault Refusal :=
  advance s (s.setResultFlag x (s.getV x - s.getV y) (noBorrowFlag (s.getV x) (s.getV y)))

/-- 8XY6 SHR Vx: shifted in place, VF = bit 0; Vy takes no part (R113, R67). -/
def execShr (x : Reg) (s : State) : Outcome State Fault Refusal :=
  advance s (s.setResultFlag x (s.getV x >>> 1) (shrFlag (s.getV x)))

/-- 8XY7 SUBN Vx,Vy: Vy - Vx, VF = no borrow of it (R114). -/
def execSubnReg (x y : Reg) (s : State) : Outcome State Fault Refusal :=
  advance s (s.setResultFlag x (s.getV y - s.getV x) (noBorrowFlag (s.getV y) (s.getV x)))

/-- 8XYE SHL Vx: shifted in place, VF = bit 7; Vy takes no part (R115, R67). -/
def execShl (x : Reg) (s : State) : Outcome State Fault Refusal :=
  advance s (s.setResultFlag x (s.getV x <<< 1) (shlFlag (s.getV x)))

/-- CXNN RND Vx,byte: the random byte masked by NN; one element of the sequence is consumed (R116, 10_state.md R30). -/
def execRnd (x : Reg) (nn : Byte) (s : State) : Outcome State Fault Refusal :=
  advance s ((s.setV x (s.randomByte &&& nn)).drawRandom)

end Sys2Proof.Machine
end

