-- ==== Sys2Proof/Machine/ControlFlow.lean ====
section
/-!
DEFINITION. The control-flow family: return, jumps, call and register skips (41_control_flow.md R90 to R100).
-/

namespace Sys2Proof.Machine

open Host (Outcome)

/-- 00EE RET: underflow tested first; PC becomes the popped entry plus 2 (R90). -/
def execRet (s : State) : Outcome State Fault Refusal :=
  match s.top with
  | none => raiseFatal .stackUnderflow s
  | some t => completeAt s s.pop (t.toNat + 2)

/-- 1NNN JP addr (R91). -/
def execJp (nnn : Addr) (s : State) : Outcome State Fault Refusal := completeAt s s nnn.toNat

/-- 2NNN CALL addr: overflow tested first; the address of the CALL itself is pushed (R92, R158). -/
def execCall (nnn : Addr) (s : State) : Outcome State Fault Refusal :=
  if s.sp ≥ Config.stackDepth then raiseFatal .stackOverflow s else completeAt s (s.push s.pc) nnn.toNat

/-- 3XNN SE Vx,byte (R93). -/
def execSeByte (x : Reg) (nn : Byte) (s : State) : Outcome State Fault Refusal := skipIf (s.getV x == nn) s

/-- 4XNN SNE Vx,byte (R94). -/
def execSneByte (x : Reg) (nn : Byte) (s : State) : Outcome State Fault Refusal := skipIf (s.getV x != nn) s

/-- 5XY0 SE Vx,Vy (R95). -/
def execSeReg (x y : Reg) (s : State) : Outcome State Fault Refusal := skipIf (s.getV x == s.getV y) s

/-- 9XY0 SNE Vx,Vy (R96). -/
def execSneReg (x y : Reg) (s : State) : Outcome State Fault Refusal := skipIf (s.getV x != s.getV y) s

/-- BNNN JP V0,addr: the sum is not wrapped (R97). -/
def execJpV0 (nnn : Addr) (s : State) : Outcome State Fault Refusal := completeAt s s (nnn.toNat + (s.getV 0).toNat)

end Sys2Proof.Machine
end

