-- ==== Sys2Proof/Machine/Framebuffer.lean ====
section
/-!
DEFINITION. The framebuffer engine: pixels, `Clear` and `DrawSprite` (40_display.md R80, R81, R82, R86).
-/

namespace Sys2Proof.Machine

/-- `FB[y mod 32][x mod 64]`: both coordinates wrap (10_state.md R19, 40_display.md R81). -/
def fbPixel (fb : Framebuffer) (x y : Nat) : Bool :=
  (fb[y % 32]'(Nat.mod_lt _ (by decide)))[x % 64]'(Nat.mod_lt _ (by decide))

/-- The same pixel exclusive-or 1. -/
def fbFlip (fb : Framebuffer) (x y : Nat) : Framebuffer :=
  fb.set (y % 32)
    ((fb[y % 32]'(Nat.mod_lt _ (by decide))).set (x % 64) (!fbPixel fb x y) (Nat.mod_lt _ (by decide)))
    (Nat.mod_lt _ (by decide))

/-- The row-major flat view: pixel (x, y) is element 64y + x (40_display.md R86). -/
def fbLinear (fb : Framebuffer) (k : Nat) : Bool := fbPixel fb (k % 64) (k / 64)

/-- Every pixel unset. -/
def fbBlank : Framebuffer := Vector.replicate 32 (Vector.replicate 64 false)

/-- What `DrawSprite` works on: the grid, the dirty flag and the collision so far. -/
structure Canvas where
  /-- The pixel grid. -/
  fb : Framebuffer
  /-- The dirty flag. -/
  dirty : Bool
  /-- Some pixel went from set to unset. -/
  collision : Bool
  deriving DecidableEq, Repr

/-- One sprite bit at a place: a 1 flips the pixel, marks dirty, and collides if the pixel was set; a 0 does nothing (R81). -/
def drawBit (x y : Nat) (bit : Bool) (c : Canvas) : Canvas :=
  if bit then ⟨fbFlip c.fb x y, true, c.collision || fbPixel c.fb x y⟩ else c

/-- The bits of a sprite row from `i` on, bit 7 leftmost (R81, 20_memory.md R47); `n` bits are left. -/
def drawBits (x y : Nat) (row : Byte) (i : Nat) : Nat → Canvas → Canvas
  | 0, c => c
  | n + 1, c => drawBits x y row (i + 1) n (drawBit (x + i) y (row.getLsbD (7 - i)) c)

/-- One row of a sprite, 8 bits from column x on (R81). -/
def drawRow (x y : Nat) (row : Byte) (c : Canvas) : Canvas := drawBits x y row 0 8 c

/-- The rows of a sprite, the first at row y (R81). -/
def drawRows (x y : Nat) : List Byte → Canvas → Canvas
  | [], c => c
  | r :: rs, c => drawRows x (y + 1) rs (drawRow x y r c)

/-- `DrawSprite(x0, y0, rows)` on the machine's grid, its collision starting at 0 (R81, R82). -/
def drawSprite (s : State) (x0 y0 : Byte) (rows : List Byte) : Canvas :=
  drawRows x0.toNat y0.toNat rows ⟨s.fb, s.dirty, false⟩

/-- The machine with a drawn canvas's grid and dirty flag. -/
def State.setCanvas (s : State) (c : Canvas) : State := { s with fb := c.fb, dirty := c.dirty }

/-- `dirty <- 1` (10_state.md R20). -/
def State.markDirty (s : State) : State := { s with dirty := true }

/-- `Clear()`: every pixel unset, dirty whether or not any was set (R80). -/
def clearScreen (s : State) : State := { s with fb := fbBlank, dirty := true }

end Sys2Proof.Machine
end

