-- ==== Sys2Proof/Machine/Display.lean ====
section
/-!
DEFINITION. The display family: 00E0 CLS and DXYN DRW (40_display.md R84, R85).
-/

namespace Sys2Proof.Machine

open Host (Outcome)

/-- 00E0 CLS (R84). -/
def execCls (s : State) : Outcome State Fault Refusal := advance s (clearScreen s)

/-- The effect of DXYN on the machine once its rows are read: the sprite drawn at `(V[x], V[y])`, both read before VF is
written, the collision in VF, and `dirty` set whatever was drawn (R85, log 14). -/
def drawEffect (s : State) (x y : Reg) (rows : List Byte) : State :=
  let c := drawSprite s (s.getV x) (s.getV y) rows
  ((s.setCanvas c).setV regF (flagByte c.collision)).markDirty

/-- DXYN DRW: the N rows at I, range checked first; N = 0 reads nothing (R85). -/
def execDrw (x y : Reg) (n : Nibble) (s : State) : Outcome State Fault Refusal :=
  match readAtI s n.toNat with
  | .error c => raiseFatal c s
  | .ok rows => advance s (drawEffect s x y rows)

end Sys2Proof.Machine
end

