-- ==== Sys2Proof/Machine/IndexMemory.lean ====
section
/-!
DEFINITION. The index-register and memory family (43_index_memory.md R125 to R132).
-/

namespace Sys2Proof.Machine

open Host (Outcome)

/-- ANNN LD I,addr (R125). -/
def execLdI (nnn : Addr) (s : State) : Outcome State Fault Refusal := advance s (s.setI (nnn.setWidth 16))

/-- FX1E ADD I,Vx: modulo 4096, no flag (R126). -/
def execAddI (x : Reg) (s : State) : Outcome State Fault Refusal := advance s (s.setI (indexSum s.i (s.getV x)))

/-- FX29 LD F,Vx: the glyph of the low digit (R127). -/
def execLdF (x : Reg) (s : State) : Outcome State Fault Refusal := advance s (s.setI (glyphAddress (s.getV x)))

/-- FX33 LD B,Vx: hundreds, tens, units at I, I + 1, I + 2 (R128). -/
def execLdB (x : Reg) (s : State) : Outcome State Fault Refusal :=
  match writeAtI s (decimalDigits (s.getV x)) with
  | .error c => raiseFatal c s
  | .ok s' => advance s s'

/-- FX55 LD [I],Vx: V0 to VX stored at I to I + X (R129). -/
def execStoreRegs (x : Reg) (s : State) : Outcome State Fault Refusal :=
  match writeAtI s (s.regsUpTo x) with
  | .error c => raiseFatal c s
  | .ok s' => advance s s'

/-- FX65 LD Vx,[I]: V0 to VX loaded from I to I + X (R130). -/
def execLoadRegs (x : Reg) (s : State) : Outcome State Fault Refusal :=
  match readAtI s (x.toNat + 1) with
  | .error c => raiseFatal c s
  | .ok bs => advance s (s.setRegs bs)

end Sys2Proof.Machine
end

