-- ==== Sys2Proof/Machine/KeypadTimers.lean ====
section
/-!
DEFINITION. The keypad and timer family (44_keypad_timers.md R135 to R141). The timer tick that ends a completed cycle is
not part of these meanings (60_exceptions.md R162).
-/

namespace Sys2Proof.Machine

open Host (Outcome)

/-- EX9E SKP Vx (R135). -/
def execSkp (x : Reg) (s : State) : Outcome State Fault Refusal :=
  match keyOperand s x with
  | .error c => raiseFatal c s
  | .ok down => skipIf down s

/-- EXA1 SKNP Vx (R136). -/
def execSknp (x : Reg) (s : State) : Outcome State Fault Refusal :=
  match keyOperand s x with
  | .error c => raiseFatal c s
  | .ok down => skipIf (!down) s

/-- FX07 LD Vx,DT (R137). -/
def execLdVxDt (x : Reg) (s : State) : Outcome State Fault Refusal := advance s (s.setV x s.dt)

/-- FX0A LD Vx,K: with no key pressed nothing changes, PC included (the blocked cycle, 10_state.md R28); with a key pressed
its number goes to Vx (R138, logs 6 and 7). -/
def execLdVxK (x : Reg) (s : State) : Outcome State Fault Refusal :=
  if s.keys = 0 then .next s
  else advance s ((s.setV x (BitVec.ofNat 8 s.reportedKey)).drawKey)

/-- FX15 LD DT,Vx (R139). -/
def execLdDtVx (x : Reg) (s : State) : Outcome State Fault Refusal := advance s (s.setDt (s.getV x))

/-- FX18 LD ST,Vx (R140). -/
def execLdStVx (x : Reg) (s : State) : Outcome State Fault Refusal := advance s (s.setSt (s.getV x))

end Sys2Proof.Machine
end

