-- ==== Sys2Proof/Machine/Cycle.lean ====
section
/-!
DEFINITION. One cycle, and what it does around the instruction: the halted machine, the blocked cycle and the timer tick
(10_state.md R26, R28, R29; 60_exceptions.md R162).
-/

namespace Sys2Proof.Machine

open Host (Outcome)

/-- The instruction is FX0A, the one that can block (10_state.md R28). -/
def isKeyWait : Instr → Bool
  | .ldVxK _ => true
  | _ => false

/-- The cycle of instruction `i` begun in state `s` is blocked: FX0A with no key pressed (10_state.md R26, R28). -/
def blocked (i : Instr) (s : State) : Bool := isKeyWait i && (s.keys == 0)

/-- The end of the cycle of `i`, begun in `s` and executed to `s'`: a completed cycle ticks the timers; a blocked one and one
that raised a fatal condition do not (60_exceptions.md R156, R162; 10_state.md R28). -/
def endCycle (i : Instr) (s s' : State) : State := if s'.halted || blocked i s then s' else tickTimers s'

/-- `endCycle` on the outcome of `exec`. -/
def afterExec (i : Instr) (s : State) : Outcome State Fault Refusal → Outcome State Fault Refusal
  | .next s' => .next (endCycle i s s')
  | .fault r => .fault r
  | .refused r => .refused r

/-- `Cycle` (10_state.md R26): a halted machine is unchanged (R29); else fetch, decode, execute, tick. A word that decodes
to nothing raises `UnrecognizedOpcode` (30_encoding.md R65). -/
def cycle (s : State) : Outcome State Fault Refusal :=
  if s.halted then .next s
  else
    match fetch s with
    | .error c => raiseFatal c s
    | .ok op =>
      match decode op with
      | .error _ => raiseFatal .unrecognizedOpcode (s.setIr op)
      | .ok i => afterExec i (s.setIr op) (exec i (s.setIr op))

/-- An instruction word stored at PC and PC + 1, high byte first (20_memory.md R46): where the next fetch reads. -/
def placeAtPc (s : State) (w : Word) : State :=
  s.setMem (memSetN s.mem s.pc.toNat [w.extractLsb' 8 8, w.extractLsb' 0 8])

end Sys2Proof.Machine
end

