-- ==== Sys2Proof/Machine/Step.lean ====
section
/-!
DEFINITION. The step of the machine, one `cycle` (10_state.md R26), and how an instruction word is put where the next cycle
fetches.
-/

namespace Sys2Proof.Machine

open Host (Outcome)

/-- One cycle (10_state.md R26). -/
def step (s : State) : Outcome State Fault Refusal := cycle s

/-- The instruction whose bits are `w` at PC, where the next `step` of a machine that is not halted fetches; it stands for a
program load at PC (log 18). Nothing else changes. -/
def State.withFetchWord (s : State) (nbits w : Nat) : State := placeAtPc s (tableWord nbits w)

end Sys2Proof.Machine
end

