-- ==== Sys2Proof/Machine/Ports.lean ====
section
/-!
DEFINITION. What the world outside the core may do between two cycles, and what it sees: the operations and outputs of
10_state.md R25. The core's own `step` takes none of these operations; a run with a schedule of them is `runEvents`
(10_state.md R31, log 16).
-/

namespace Sys2Proof.Machine

open Host (Outcome)

/-- The result `load_error` of `load_program` (70_reset_and_hazards.md R173). -/
inductive LoadError where
  /-- The sequence is longer than 3584 bytes; nothing was written. -/
  | oversized
  deriving DecidableEq, Repr

/-- `load_program(bytes)`: the bytes copied to 0x200 and upward, or nothing at all when they do not fit; nothing else is
touched and `halted` is not cleared (70_reset_and_hazards.md R172, R173). -/
def loadProgram (bytes : List Byte) (s : State) : Except LoadError State :=
  if bytes.length > Config.progMax then .error .oversized
  else .ok (s.setMem (memSetN s.mem Config.progBase bytes))

/-- The keypad mask of one key. -/
def keyBit (k : Nibble) : BitVec 16 := 1#16 <<< k.toNat

/-- `set_key(k, b)`: K[k] becomes b, the other keys stay (10_state.md R17). -/
def setKey (k : Nibble) (b : Bool) (s : State) : State :=
  { s with keys := if b then s.keys ||| keyBit k else s.keys &&& ~~~(keyBit k) }

/-- `take_dirty()`: the dirty flag, which it clears (40_display.md R83). -/
def takeDirty (s : State) : Bool × State := (s.dirty, { s with dirty := false })

/-- `reset`: every piece of the spec's state at its reset value, `halted` included (70_reset_and_hazards.md R170). The two
counters of the free values are the model's own and run on, so that no draw is repeated (log 19). -/
def resetOp (s : State) : State := { State.reset with rndIndex := s.rndIndex, keyDraws := s.keyDraws }

/-- The output `fb`: the pixel in column x of row y (10_state.md R19, R25). -/
def State.pixelOut (s : State) (x y : Nat) : Bool := fbPixel s.fb x y

/-- What happens next at the core's interface (10_state.md R25, R31). -/
inductive Event where
  /-- `cycle`. -/
  | cycle
  /-- `set_key(k, b)`. -/
  | setKey (k : Nibble) (b : Bool)
  /-- `take_dirty()`. -/
  | takeDirty
  /-- `load_program(bytes)`; a failed load leaves the machine as it was (R173). -/
  | loadProgram (bytes : List Byte)
  /-- `reset`. -/
  | reset
  deriving DecidableEq, Repr

/-- The machine after one event; host operations are atomic with respect to cycles (10_state.md R31). -/
def applyEvent (e : Event) (s : State) : Outcome State Fault Refusal :=
  match e with
  | .cycle => step s
  | .setKey k b => .next (setKey k b s)
  | .takeDirty => .next (takeDirty s).2
  | .loadProgram bytes =>
    match loadProgram bytes s with
    | .ok s' => .next s'
    | .error _ => .next s
  | .reset => .next (resetOp s)

/-- A run over a schedule of events, in any number and order (10_state.md R31). -/
def runEvents : List Event → State → Outcome State Fault Refusal
  | [], s => .next s
  | e :: es, s =>
    match applyEvent e s with
    | .next s' => runEvents es s'
    | .fault r => .fault r
    | .refused r => .refused r

end Sys2Proof.Machine
end

