-- ==== Sys2Proof/Safety.lean ====
section
/-!
DEFINITION. The machine's invariant, and what claims call a faulted and a finished run.
-/

namespace Sys2Proof.Machine

open Host (Outcome)

/-- What is true of the machine whenever a cycle starts: the ranges of PC, I, SP and the stack entries (10_state.md R12,
R13, R14), the canonical form of memory, and that a halted machine still shows the instruction that halted it
(60_exceptions.md R155, R156: PC is left addressing it and IR holds it). -/
structure State.Inv (s : State) : Prop where
  /-- PC is in 0 to 0xFFE (R13). -/
  pcRange : s.pc.toNat ≤ 0xFFE
  /-- Bits 15 to 12 of I are 0 (R12). -/
  iRange : s.i.toNat ≤ 0xFFF
  /-- SP never exceeds 16 (R14). -/
  spRange : s.sp ≤ 16
  /-- An entry is the address of the CALL that pushed it (R14). -/
  entryRange : ∀ w ∈ s.stack, w.toNat ≤ 0xFFE
  /-- Memory is in canonical form. -/
  memWf : s.mem.wf = true
  /-- The diagnostic's program counter is where PC still is (R155, R156). -/
  diagPc : ∀ d, s.fatal = some d → d.pc = s.pc
  /-- The diagnostic's opcode is what IR still holds (R155). -/
  diagOpcode : ∀ d, s.fatal = some d → d.opcode = s.ir
  /-- The cause is `UnrecognizedOpcode` exactly when the opcode decodes to nothing (R153, R158). -/
  diagCause : ∀ d, s.fatal = some d → (d.cause = .unrecognizedOpcode ↔ ∃ e, decode d.opcode = .error e)

/-- A run that reached `halted` is faulted, never finished (60_exceptions.md R157). -/
def Faulted (o : Outcome State Fault Refusal) : Prop :=
  match o with
  | .next s => s.halted = true
  | .fault _ => True
  | .refused _ => True

/-- A safe run of `n` cycles: it ends in a machine that is not halted. -/
def SafeFor (n : Nat) (s : State) : Prop := ∀ k, k ≤ n → ¬ Faulted (runEvents (List.replicate k .cycle) s)

/-- The model's notion of the end of a run: not halted, PC at a `JP` to its own address (70_reset_and_hazards.md R180,
log 20). -/
def Finished (s : State) : Prop :=
  s.halted = false ∧ ∃ op nnn, fetch s = .ok op ∧ decode op = .ok (.jp nnn) ∧ nnn.toNat = s.pc.toNat

end Sys2Proof.Machine
end

