-- ==== Sys2Proof/Certificates/Slice0/Obligations.lean ====
section
/-!
DEFINITION. The statements for the provers, each from the numbered rules of spec/ its docstring names, and the words they
are said in (namespace Sys2Proof.Claims).
-/

namespace Sys2Proof.Claims

open Sys2Proof Sys2Proof.Machine Host

/-! ## Words the statements are said in -/

/-- Every byte of memory reads as before. -/
def SameMemory (s t : State) : Prop := ∀ a, memGet t.mem a = memGet s.mem a

/-- The instruction raises the fatal condition `c`: a next state in which it is recorded with IR and PC, and nothing else
differs from the state the instruction began in (60_exceptions.md R155, R156). That the rest of the state is untouched is the
spec's own decision D4, and that a fatal condition is a next state of the model is log 1. -/
def RaisesFatal (c : Cause) (i : Instr) (s : State) : Prop :=
  exec i s = .next { s with fatal := some ⟨c, s.ir, s.pc⟩ }

/-- The instruction, whose PC rule is PC + 2, completes with `P` of the next state wherever PC + 2 is at most 0xFFE
(10_state.md R13, R27). Where it is above, the common fatal condition applies, which
`Obligations.EveryInstructionsPcAndFatalCondition` states for every instruction. -/
def Sequential (i : Instr) (s : State) (P : State → Prop) : Prop :=
  s.pc.toNat + 2 ≤ 0xFFE → ∃ t, exec i s = .next t ∧ t.pc.toNat = s.pc.toNat + 2 ∧ P t

/-- Frame of a register-only form: the registers outside `ws`, every byte of memory and every other piece of state but PC
are unchanged. -/
def RegFrame (ws : List Reg) (s t : State) : Prop :=
  (∀ k, k ∉ ws → t.getV k = s.getV k) ∧ SameMemory s t ∧ t = { s with v := t.v, pc := t.pc }

/-- Frame of a form that writes I alone. -/
def IndexFrame (s t : State) : Prop :=
  (∀ k, t.getV k = s.getV k) ∧ SameMemory s t ∧ t = { s with i := t.i, pc := t.pc }

/-- Frame of a form that stores `n` bytes at I: every byte outside them, every register and every other piece of state but
PC are unchanged. -/
def StoreFrame (n : Nat) (s t : State) : Prop :=
  (∀ a, a < s.i.toNat ∨ s.i.toNat + n ≤ a → memGet t.mem a = memGet s.mem a) ∧
  (∀ k, t.getV k = s.getV k) ∧ t = { s with mem := t.mem, pc := t.pc }

/-- A skip: PC + 4 where the condition holds, PC + 2 where it does not, nothing else written, wherever that PC is at most
0xFFE (41_control_flow.md R98; above it, `Obligations.EveryInstructionsPcAndFatalCondition`). -/
def Skips (i : Instr) (s : State) (cond : Prop) : Prop :=
  (cond → s.pc.toNat + 4 ≤ 0xFFE →
    ∃ t, exec i s = .next t ∧ t.pc.toNat = s.pc.toNat + 4 ∧ RegFrame [] s t) ∧
  (¬ cond → s.pc.toNat + 2 ≤ 0xFFE →
    ∃ t, exec i s = .next t ∧ t.pc.toNat = s.pc.toNat + 2 ∧ RegFrame [] s t)

/-- The word at PC, big-endian (20_memory.md R46). -/
def wordAtPc (s : State) : Word := memGet s.mem s.pc.toNat ++ memGet s.mem (s.pc.toNat + 1)

/-- The next cycle of a machine that is not halted fetches instruction `i`. -/
def Fetches (s : State) (i : Instr) : Prop :=
  s.halted = false ∧ s.pc.toNat ≤ 0xFFE ∧ decode (wordAtPc s) = .ok i

/-- The X field of an instruction that has one (30_encoding.md R61). -/
def xField : Instr → Option Reg
  | .cls | .ret | .jp _ | .call _ | .ldI _ | .jpV0 _ => none
  | .seByte x _ | .sneByte x _ | .seReg x _ | .ldByte x _ | .addByte x _ | .ldReg x _ | .orReg x _ | .andReg x _
  | .xorReg x _ | .addReg x _ | .subReg x _ | .shr x _ | .subnReg x _ | .shl x _ | .sneReg x _ | .rnd x _ | .drw x _ _
  | .skp x | .sknp x | .ldVxDt x | .ldVxK x | .ldDtVx x | .ldStVx x | .addI x | .ldF x | .ldB x | .storeRegs x
  | .loadRegs x => some x

/-- The six instructions that write VF as a flag (10_state.md R11). -/
def writesFlag : Instr → Bool
  | .addReg _ _ | .subReg _ _ | .shr _ _ | .subnReg _ _ | .shl _ _ | .drw _ _ _ => true
  | _ => false

/-- The new PC of each instruction's rule, before its range check (10_state.md R27). -/
def newPc (i : Instr) (s : State) : Nat :=
  match i with
  | .jp nnn | .call nnn => nnn.toNat
  | .jpV0 nnn => nnn.toNat + (s.getV 0).toNat
  | .ret => (s.stack.getLastD 0).toNat + 2
  | .seByte x nn => if s.getV x = nn then s.pc.toNat + 4 else s.pc.toNat + 2
  | .sneByte x nn => if s.getV x = nn then s.pc.toNat + 2 else s.pc.toNat + 4
  | .seReg x y => if s.getV x = s.getV y then s.pc.toNat + 4 else s.pc.toNat + 2
  | .sneReg x y => if s.getV x = s.getV y then s.pc.toNat + 2 else s.pc.toNat + 4
  | .skp x => if s.keys.getLsbD (s.getV x).toNat then s.pc.toNat + 4 else s.pc.toNat + 2
  | .sknp x => if s.keys.getLsbD (s.getV x).toNat then s.pc.toNat + 2 else s.pc.toNat + 4
  | .ldVxK _ => if s.keys = 0 then s.pc.toNat else s.pc.toNat + 2
  | _ => s.pc.toNat + 2

/-- The operand and address checks of an instruction, causes (a) to (e) of 60_exceptions.md R154. -/
def operandOutOfRange (i : Instr) (s : State) : Bool :=
  match i with
  | .drw _ _ n => decide (1 ≤ n.toNat ∧ 0x1000 < s.i.toNat + n.toNat)
  | .ldB _ => decide (0xFFF < s.i.toNat + 2)
  | .storeRegs x | .loadRegs x => decide (0xFFF < s.i.toNat + x.toNat)
  | .skp x | .sknp x => decide (15 < (s.getV x).toNat)
  | _ => false

/-- The stack checks (60_exceptions.md R151, R152). -/
def stackFatal (i : Instr) (s : State) : Option Cause :=
  match i with
  | .ret => if s.sp = 0 then some .stackUnderflow else none
  | .call _ => if s.sp = 16 then some .stackOverflow else none
  | _ => none

/-- The one fatal condition an instruction raises, by the priority of 60_exceptions.md R158: the stack, then operands and
addresses, then the new PC. -/
def fatalOf (i : Instr) (s : State) : Option Cause :=
  match stackFatal i s with
  | some c => some c
  | none => if operandOutOfRange i s = true ∨ 0xFFE < newPc i s then some .outOfRangeAccess else none

/-- The cycle of instruction `i` is blocked: FX0A with no key pressed (10_state.md R28). -/
def waitsForKey (i : Instr) (s : State) : Bool :=
  match i with
  | .ldVxK _ => s.keys == 0
  | _ => false

/-- Sprite rows `rows` drawn at (x0, y0) have a 1 bit over pixel (px, py) (40_display.md R81). -/
def Covers (x0 y0 : Nat) (rows : List Byte) (px py : Nat) : Prop :=
  ∃ j i, ∃ h : j < rows.length, i < 8 ∧ (rows[j]).getLsbD (7 - i) = true ∧ px = (x0 + i) % 64 ∧ py = (y0 + j) % 32

/-- Bit `i` of row `j`, counted from the most significant, is a 1 and the only 1 of the sprite. -/
def OnlyBit (rows : List Byte) (j i : Nat) : Prop :=
  (∃ h : j < rows.length, i < 8 ∧ (rows[j]).getLsbD (7 - i) = true) ∧
  ∀ j' i', (∃ h : j' < rows.length, i' < 8 ∧ (rows[j']).getLsbD (7 - i') = true) → j' = j ∧ i' = i

/-- A timer one lower, or 0 (60_exceptions.md R162). -/
def ticked (b : Byte) : Byte := BitVec.ofNat 8 (b.toNat - 1)

end Sys2Proof.Claims

open Sys2Proof Sys2Proof.Machine Sys2Proof.Claims Host

/-! ## Encoding -/

/-- 30_encoding.md R60 to R62: no bit of an encoding is dropped; an encoded instruction at the head of any byte string is
read back whole, with the bytes after it. -/
def Obligations.DecodeOfEncodeIsTheInstruction : Prop :=
  ∀ (i : Instr) (rest : List Byte), decode (encode i) = .ok i ∧ decodeBytes (encodeBytes i ++ rest) = .ok (i, rest)

/-- 30_encoding.md R62: each word has one meaning; what decodes to an instruction is that instruction's encoding. -/
def Obligations.EncodeOfDecodeIsTheWord : Prop :=
  ∀ (op : Word) (i : Instr), decode op = .ok i → encode i = op

/-- 30_encoding.md R62, R64: the decision procedure is the mask and match table. -/
def Obligations.DecodeAgreesWithOpcodeTable : Prop :=
  (∀ (op : Word) (r : OpRow), r ∈ opcodeTable → r.selects op = true → ∃ i, decode op = .ok i ∧ i.row = r) ∧
  (∀ (op : Word) (i : Instr), decode op = .ok i → i.row ∈ opcodeTable ∧ i.row.selects op = true)

/-- 30_encoding.md R65: a word no row selects is unrecognized, by name. -/
def Obligations.UnmatchedWordIsUnrecognized : Prop :=
  ∀ op : Word, (∀ r ∈ opcodeTable, r.selects op = false) → decode op = .error (.unrecognized op)

/-- 30_encoding.md R61, R62: the number of every instruction's word, field by field. -/
def Obligations.EncodingsFieldByField : Prop :=
  ∀ (x y : Reg) (n : Nibble) (nn : Byte) (nnn : Addr),
    (encode .cls).toNat = 0x00E0 ∧ (encode .ret).toNat = 0x00EE ∧
    (encode (.jp nnn)).toNat = 0x1000 + nnn.toNat ∧ (encode (.call nnn)).toNat = 0x2000 + nnn.toNat ∧
    (encode (.seByte x nn)).toNat = 0x3000 + 0x100 * x.toNat + nn.toNat ∧
    (encode (.sneByte x nn)).toNat = 0x4000 + 0x100 * x.toNat + nn.toNat ∧
    (encode (.seReg x y)).toNat = 0x5000 + 0x100 * x.toNat + 0x10 * y.toNat ∧
    (encode (.ldByte x nn)).toNat = 0x6000 + 0x100 * x.toNat + nn.toNat ∧
    (encode (.addByte x nn)).toNat = 0x7000 + 0x100 * x.toNat + nn.toNat ∧
    (encode (.ldReg x y)).toNat = 0x8000 + 0x100 * x.toNat + 0x10 * y.toNat ∧
    (encode (.orReg x y)).toNat = 0x8001 + 0x100 * x.toNat + 0x10 * y.toNat ∧
    (encode (.andReg x y)).toNat = 0x8002 + 0x100 * x.toNat + 0x10 * y.toNat ∧
    (encode (.xorReg x y)).toNat = 0x8003 + 0x100 * x.toNat + 0x10 * y.toNat ∧
    (encode (.addReg x y)).toNat = 0x8004 + 0x100 * x.toNat + 0x10 * y.toNat ∧
    (encode (.subReg x y)).toNat = 0x8005 + 0x100 * x.toNat + 0x10 * y.toNat ∧
    (encode (.shr x y)).toNat = 0x8006 + 0x100 * x.toNat + 0x10 * y.toNat ∧
    (encode (.subnReg x y)).toNat = 0x8007 + 0x100 * x.toNat + 0x10 * y.toNat ∧
    (encode (.shl x y)).toNat = 0x800E + 0x100 * x.toNat + 0x10 * y.toNat ∧
    (encode (.sneReg x y)).toNat = 0x9000 + 0x100 * x.toNat + 0x10 * y.toNat ∧
    (encode (.ldI nnn)).toNat = 0xA000 + nnn.toNat ∧ (encode (.jpV0 nnn)).toNat = 0xB000 + nnn.toNat ∧
    (encode (.rnd x nn)).toNat = 0xC000 + 0x100 * x.toNat + nn.toNat ∧
    (encode (.drw x y n)).toNat = 0xD000 + 0x100 * x.toNat + 0x10 * y.toNat + n.toNat ∧
    (encode (.skp x)).toNat = 0xE09E + 0x100 * x.toNat ∧ (encode (.sknp x)).toNat = 0xE0A1 + 0x100 * x.toNat ∧
    (encode (.ldVxDt x)).toNat = 0xF007 + 0x100 * x.toNat ∧ (encode (.ldVxK x)).toNat = 0xF00A + 0x100 * x.toNat ∧
    (encode (.ldDtVx x)).toNat = 0xF015 + 0x100 * x.toNat ∧ (encode (.ldStVx x)).toNat = 0xF018 + 0x100 * x.toNat ∧
    (encode (.addI x)).toNat = 0xF01E + 0x100 * x.toNat ∧ (encode (.ldF x)).toNat = 0xF029 + 0x100 * x.toNat ∧
    (encode (.ldB x)).toNat = 0xF033 + 0x100 * x.toNat ∧ (encode (.storeRegs x)).toNat = 0xF055 + 0x100 * x.toNat ∧
    (encode (.loadRegs x)).toNat = 0xF065 + 0x100 * x.toNat

/-- A few words of 95_test_vectors.md section 2.1 decode as it says. -/
def Obligations.SampleWordsDecode : Prop :=
  decode 0x00E0 = .ok .cls ∧ decode 0x10E0 = .ok (.jp 0x0E0) ∧ decode 0x5120 = .ok (.seReg 1 2) ∧
  decode 0x812E = .ok (.shl 1 2) ∧ decode 0xE0A1 = .ok (.sknp 0) ∧ decode 0xF01E = .ok (.addI 0) ∧
  decode 0xFF65 = .ok (.loadRegs 0xF) ∧ decode 0x01E0 = .error (.unrecognized 0x01E0) ∧
  decode 0x812F = .error (.unrecognized 0x812F)

/-! ## Register, arithmetic, logic, shift and random family -/

/-- 42_alu.md R105, R106, R107. -/
def Obligations.LoadsAndAddImmediate : Prop :=
  ∀ (x y : Reg) (nn : Byte) (s : State),
    Sequential (.ldByte x nn) s (fun t => t.getV x = nn ∧ RegFrame [x] s t) ∧
    Sequential (.addByte x nn) s
      (fun t => (t.getV x).toNat = ((s.getV x).toNat + nn.toNat) % 256 ∧ RegFrame [x] s t) ∧
    Sequential (.ldReg x y) s (fun t => t.getV x = s.getV y ∧ RegFrame [x] s t)

/-- 42_alu.md R108, R109, R110: bit by bit. That VF is not written is the spec's own decision D16 (log 13). -/
def Obligations.LogicOperationsBitByBit : Prop :=
  ∀ (x y : Reg) (s : State),
    Sequential (.orReg x y) s (fun t =>
      (∀ k, (t.getV x).getLsbD k = ((s.getV x).getLsbD k || (s.getV y).getLsbD k)) ∧ RegFrame [x] s t) ∧
    Sequential (.andReg x y) s (fun t =>
      (∀ k, (t.getV x).getLsbD k = ((s.getV x).getLsbD k && (s.getV y).getLsbD k)) ∧ RegFrame [x] s t) ∧
    Sequential (.xorReg x y) s (fun t =>
      (∀ k, (t.getV x).getLsbD k = Bool.xor ((s.getV x).getLsbD k) ((s.getV y).getLsbD k)) ∧ RegFrame [x] s t)

/-- 42_alu.md R111. With X = 0xF the flag stays: R118, the spec's own decision D11 (log 8). -/
def Obligations.AddRegisterSetsCarry : Prop :=
  ∀ (x y : Reg) (s : State),
    Sequential (.addReg x y) s (fun t =>
      t.getV 0xF = (if (s.getV x).toNat + (s.getV y).toNat > 255 then 1 else 0) ∧
      (x ≠ 0xF → (t.getV x).toNat = ((s.getV x).toNat + (s.getV y).toNat) % 256) ∧
      RegFrame [x, 0xF] s t)

/-- 42_alu.md R112, R114. With X = 0xF the flag stays: R118, the spec's own decision D11 (log 8). -/
def Obligations.SubtractionsSetNoBorrow : Prop :=
  ∀ (x y : Reg) (s : State),
    Sequential (.subReg x y) s (fun t =>
      t.getV 0xF = (if (s.getV x).toNat ≥ (s.getV y).toNat then 1 else 0) ∧
      (x ≠ 0xF → (t.getV x).toNat = (256 + (s.getV x).toNat - (s.getV y).toNat) % 256) ∧
      RegFrame [x, 0xF] s t) ∧
    Sequential (.subnReg x y) s (fun t =>
      t.getV 0xF = (if (s.getV y).toNat ≥ (s.getV x).toNat then 1 else 0) ∧
      (x ≠ 0xF → (t.getV x).toNat = (256 + (s.getV y).toNat - (s.getV x).toNat) % 256) ∧
      RegFrame [x, 0xF] s t)

/-- 42_alu.md R113, R115. With X = 0xF the flag stays: R118, the spec's own decision D11 (log 8). Y takes no part
(30_encoding.md R67, decision D17, log 13). -/
def Obligations.ShiftsPutTheLostBitInVF : Prop :=
  ∀ (x y : Reg) (s : State),
    Sequential (.shr x y) s (fun t =>
      (t.getV 0xF).toNat = (s.getV x).toNat % 2 ∧
      (x ≠ 0xF → (t.getV x).toNat = (s.getV x).toNat / 2) ∧ RegFrame [x, 0xF] s t) ∧
    Sequential (.shl x y) s (fun t =>
      (t.getV 0xF).toNat = (s.getV x).toNat / 128 ∧
      (x ≠ 0xF → (t.getV x).toNat = 2 * (s.getV x).toNat % 256) ∧ RegFrame [x, 0xF] s t)

/-- 42_alu.md R116: whatever the random byte is, the result is it masked by NN, so NN = 0 gives 0 and
NN = 1 gives 0 or 1; no flag. That the random byte is element `rndIndex` of an uninterpreted sequence, and the counter
itself, are the model's own choice (log 5). -/
def Obligations.RandomByteIsMasked : Prop :=
  ∀ (x : Reg) (nn : Byte) (s : State),
    Sequential (.rnd x nn) s (fun t =>
      (∀ k, nn.getLsbD k = false → (t.getV x).getLsbD k = false) ∧
      (∀ k, nn.getLsbD k = true → (t.getV x).getLsbD k = (Config.rnd s.rndIndex).getLsbD k) ∧
      (∀ k, k ≠ x → t.getV k = s.getV k) ∧ SameMemory s t ∧
      t = { s with v := t.v, pc := t.pc, rndIndex := t.rndIndex })

/-- 10_state.md R11: the six flag writers leave 0 or 1 in VF; no other instruction writes VF unless its X field is 0xF.
That the flag stays with X = 0xF, and that 8XY1, 8XY2, 8XY3 and FX1E leave VF alone, are the spec's own decisions D11, D16
and D29 (logs 8 and 13). -/
def Obligations.OnlyFlagInstructionsWriteVF : Prop :=
  ∀ (i : Instr) (s t : State), exec i s = .next t → s.fatal = none → t.fatal = none →
    (writesFlag i = true → t.getV 0xF = 0 ∨ t.getV 0xF = 1) ∧
    (writesFlag i = false → xField i ≠ some 0xF → t.getV 0xF = s.getV 0xF)

/-! ## Control flow -/

/-- 41_control_flow.md R91, R97. The fatal clauses, and that the sum of BNNN is not wrapped, are the spec's own decisions D4,
D6 and D7 (logs 1 and 9). -/
def Obligations.JumpsSetPc : Prop :=
  ∀ (nnn : Addr) (s : State),
    (nnn.toNat ≤ 0xFFE → ∃ t, exec (.jp nnn) s = .next t ∧ t.pc.toNat = nnn.toNat ∧ RegFrame [] s t) ∧
    (nnn.toNat = 0xFFF → RaisesFatal .outOfRangeAccess (.jp nnn) s) ∧
    (nnn.toNat + (s.getV 0).toNat ≤ 0xFFE →
      ∃ t, exec (.jpV0 nnn) s = .next t ∧ t.pc.toNat = nnn.toNat + (s.getV 0).toNat ∧ RegFrame [] s t) ∧
    (0xFFE < nnn.toNat + (s.getV 0).toNat → RaisesFatal .outOfRangeAccess (.jpV0 nnn) s)

/-- 41_control_flow.md R92: the stack check comes first, then the target's. The value pushed and the fatal clauses are the
spec's own decisions D23, D4, D6 and D19 (logs 1, 9, 11, 15). -/
def Obligations.CallPushesItsOwnAddress : Prop :=
  ∀ (nnn : Addr) (s : State),
    (s.sp = 16 → RaisesFatal .stackOverflow (.call nnn) s) ∧
    (s.sp < 16 → nnn.toNat = 0xFFF → RaisesFatal .outOfRangeAccess (.call nnn) s) ∧
    (s.sp < 16 → nnn.toNat ≤ 0xFFE →
      ∃ t, exec (.call nnn) s = .next t ∧ t.sp = s.sp + 1 ∧ t.stack[s.sp]? = some s.pc ∧
        (∀ k, k < s.sp → t.stack[k]? = s.stack[k]?) ∧ t.pc.toNat = nnn.toNat ∧
        (∀ k, t.getV k = s.getV k) ∧ SameMemory s t ∧ t = { s with stack := t.stack, pc := t.pc })

/-- 41_control_flow.md R90: the stack check comes first; the popped entry plus 2 is the new PC. That the entry is the
CALL's own address, to which RET adds 2, and the fatal clauses are the spec's own decisions D23, D4 and D6 (logs 1, 9, 11). -/
def Obligations.ReturnPopsAndAdvances : Prop :=
  ∀ (s : State) (w : Word),
    (s.sp = 0 → RaisesFatal .stackUnderflow .ret s) ∧
    (0 < s.sp → s.stack[s.sp - 1]? = some w → 0xFFE < w.toNat + 2 → RaisesFatal .outOfRangeAccess .ret s) ∧
    (0 < s.sp → s.stack[s.sp - 1]? = some w → w.toNat + 2 ≤ 0xFFE →
      ∃ t, exec .ret s = .next t ∧ t.sp = s.sp - 1 ∧ (∀ k, k < s.sp - 1 → t.stack[k]? = s.stack[k]?) ∧
        t.pc.toNat = w.toNat + 2 ∧
        (∀ k, t.getV k = s.getV k) ∧ SameMemory s t ∧ t = { s with stack := t.stack, pc := t.pc })

/-- 60_exceptions.md R151, R152: a call beyond 16 levels and a return with an empty stack are fatal, whatever the target;
nothing is pushed or popped and PC is not changed. That fatal is a next state, halted with its cause, is decision D4 and the
model's form of it (log 1); that the stack check comes before the target's is decision D19 (log 15). -/
def Obligations.StackLimitsAreFatal : Prop :=
  ∀ (nnn : Addr) (s : State),
    (s.sp = 16 → ∃ t, exec (.call nnn) s = .next t ∧ t.halted = true ∧ t.cause = some .stackOverflow ∧
      t.stack = s.stack ∧ t.pc = s.pc) ∧
    (s.sp = 0 → ∃ t, exec .ret s = .next t ∧ t.halted = true ∧ t.cause = some .stackUnderflow ∧
      t.sp = 0 ∧ t.pc = s.pc)

/-- 41_control_flow.md R90, R92 and 95_test_vectors.md S6: a return, wherever it stands and whatever happened to the rest
of the machine, resumes at the CALL's address plus 2 with the stack as it was. That the entry is the CALL's own address is
the spec's own decision D23 (log 11). -/
def Obligations.CallThenReturnResumesAfterTheCall : Prop :=
  ∀ (nnn : Addr) (s t u : State), s.sp < 16 → nnn.toNat ≤ 0xFFE → s.pc.toNat + 2 ≤ 0xFFE →
    exec (.call nnn) s = .next t → u.stack = t.stack →
    ∃ r, exec .ret u = .next r ∧ r.pc.toNat = s.pc.toNat + 2 ∧ r.stack = s.stack

/-- 41_control_flow.md R93, R94, R95, R96. -/
def Obligations.RegisterSkips : Prop :=
  ∀ (x y : Reg) (nn : Byte) (s : State),
    Skips (.seByte x nn) s ((s.getV x).toNat = nn.toNat) ∧
    Skips (.sneByte x nn) s ((s.getV x).toNat ≠ nn.toNat) ∧
    Skips (.seReg x y) s ((s.getV x).toNat = (s.getV y).toNat) ∧
    Skips (.sneReg x y) s ((s.getV x).toNat ≠ (s.getV y).toNat)

/-! ## Index register and memory -/

/-- 43_index_memory.md R125, R127. -/
def Obligations.IndexRegisterLoads : Prop :=
  ∀ (x : Reg) (nnn : Addr) (s : State),
    Sequential (.ldI nnn) s (fun t => t.i.toNat = nnn.toNat ∧ IndexFrame s t) ∧
    Sequential (.ldF x) s (fun t => t.i.toNat = 5 * ((s.getV x).toNat % 16) ∧ IndexFrame s t)

/-- 43_index_memory.md R126. That VF is not written is the spec's own decision D29 (log 13). -/
def Obligations.AddToIndexWrapsSilently : Prop :=
  ∀ (x : Reg) (s : State),
    Sequential (.addI x) s (fun t => t.i.toNat = (s.i.toNat + (s.getV x).toNat) % 4096 ∧ IndexFrame s t)

/-- 43_index_memory.md R128. That I is unchanged, that a fatal condition comes before any write, and that a store below 0x200
lands like any other are the spec's own decisions D13, D18 and D12 (20_memory.md R42; logs 1, 12, 13, 15). -/
def Obligations.DecimalDigitsStored : Prop :=
  ∀ (x : Reg) (s : State),
    (0xFFF < s.i.toNat + 2 → RaisesFatal .outOfRangeAccess (.ldB x) s) ∧
    (s.i.toNat + 2 ≤ 0xFFF → Sequential (.ldB x) s (fun t =>
      (memGet t.mem s.i.toNat).toNat = (s.getV x).toNat / 100 ∧
      (memGet t.mem (s.i.toNat + 1)).toNat = (s.getV x).toNat / 10 % 10 ∧
      (memGet t.mem (s.i.toNat + 2)).toNat = (s.getV x).toNat % 10 ∧ StoreFrame 3 s t))

/-- 43_index_memory.md R129. That I is unchanged, that a fatal condition comes before any write, and that a store below 0x200
lands like any other are the spec's own decisions D13, D18 and D12 (20_memory.md R42; logs 1, 12, 13, 15). -/
def Obligations.RegistersStored : Prop :=
  ∀ (x : Reg) (s : State),
    (0xFFF < s.i.toNat + x.toNat → RaisesFatal .outOfRangeAccess (.storeRegs x) s) ∧
    (s.i.toNat + x.toNat ≤ 0xFFF → Sequential (.storeRegs x) s (fun t =>
      (∀ k : Reg, k.toNat ≤ x.toNat → memGet t.mem (s.i.toNat + k.toNat) = s.getV k) ∧
      StoreFrame (x.toNat + 1) s t))

/-- 43_index_memory.md R130. That I is unchanged and that a fatal condition comes before any write are the spec's own decisions
D13 and D18 (logs 1, 13, 15). -/
def Obligations.RegistersLoaded : Prop :=
  ∀ (x : Reg) (s : State),
    (0xFFF < s.i.toNat + x.toNat → RaisesFatal .outOfRangeAccess (.loadRegs x) s) ∧
    (s.i.toNat + x.toNat ≤ 0xFFF → Sequential (.loadRegs x) s (fun t =>
      (∀ k : Reg, k.toNat ≤ x.toNat → t.getV k = memGet s.mem (s.i.toNat + k.toNat)) ∧
      (∀ k : Reg, x.toNat < k.toNat → t.getV k = s.getV k) ∧ SameMemory s t ∧ t = { s with v := t.v, pc := t.pc }))

/-- 43_index_memory.md R129, R130: what FX55 saved, FX65 brings back, whatever the registers hold by then. It needs FX55 to
leave I unchanged and a store below 0x200 to land, which are the spec's own decisions D13 (R131, log 13) and D12
(20_memory.md R42, log 12). -/
def Obligations.StoreThenLoadRestoresRegisters : Prop :=
  ∀ (x : Reg) (s t u : State) (w : Vector Byte 16), s.i.toNat + x.toNat ≤ 0xFFF → s.pc.toNat + 4 ≤ 0xFFE →
    exec (.storeRegs x) s = .next t → exec (.loadRegs x) { t with v := w } = .next u →
    ∀ k : Reg, k.toNat ≤ x.toNat → u.getV k = s.getV k

/-- 20_memory.md R54: the word a store puts where PC points next is the word the next fetch reads. That this
holds below 0x200 too is the spec's own decision D12 (R42, log 12). -/
def Obligations.StoreIsSeenByTheNextFetch : Prop :=
  ∀ (x : Reg) (s t : State), 1 ≤ x.toNat → s.i.toNat = s.pc.toNat + 2 → s.i.toNat + x.toNat ≤ 0xFFF →
    s.pc.toNat + 2 ≤ 0xFFE → exec (.storeRegs x) s = .next t → fetch t = .ok (s.getV 0 ++ s.getV 1)

/-- 20_memory.md R43, R44: reads and checked writes of one byte, in and out of range. That a write below 0x200 is seen like
any other is the spec's own decision D12 (R42, log 12). -/
def Obligations.ByteAccessPrimitives : Prop :=
  ∀ (m : Memory) (a : Nat) (b : Byte),
    (a ≤ 0xFFF → memRead m a = .ok (memGet m a) ∧
      ∃ m', memWriteN m a [b] = .ok m' ∧ memRead m' a = .ok b ∧ ∀ c, c ≠ a → memRead m' c = memRead m c) ∧
    (0xFFF < a → memRead m a = .error .outOfRangeAccess ∧ memWriteN m a [b] = .error .outOfRangeAccess)

/-! ## Display -/

/-- 40_display.md R80, R84. -/
def Obligations.ClearScreenUnsetsEveryPixel : Prop :=
  ∀ s : State, Sequential .cls s (fun t =>
    (∀ px py, px < 64 → py < 32 → fbPixel t.fb px py = false) ∧ t.dirty = true ∧
    (∀ k, t.getV k = s.getV k) ∧ SameMemory s t ∧ t = { s with fb := t.fb, dirty := true, pc := t.pc })

/-- 40_display.md R85, R81: the pixels, VF, `dirty` and the frame of DXYN, and where it traps. That I is
unchanged, N = 0, `dirty` set whatever is drawn, and the trap before any write are the spec's own decisions D13, D14, D15 and
D18 (logs 1, 13, 14, 15). -/
def Obligations.DrawXorsTheSprite : Prop :=
  ∀ (x y : Reg) (n : Nibble) (s : State),
    (1 ≤ n.toNat → 0x1000 < s.i.toNat + n.toNat → RaisesFatal .outOfRangeAccess (.drw x y n) s) ∧
    (n.toNat = 0 ∨ s.i.toNat + n.toNat ≤ 0x1000 → Sequential (.drw x y n) s (fun t =>
      let rows := memGetN s.mem s.i.toNat n.toNat
      let on := Covers (s.getV x).toNat (s.getV y).toNat rows
      (∀ px py, px < 64 → py < 32 →
        (on px py → fbPixel t.fb px py = !fbPixel s.fb px py) ∧
        (¬ on px py → fbPixel t.fb px py = fbPixel s.fb px py)) ∧
      ((∃ px py, px < 64 ∧ py < 32 ∧ on px py ∧ fbPixel s.fb px py = true) → t.getV 0xF = 1) ∧
      ((¬ ∃ px py, px < 64 ∧ py < 32 ∧ on px py ∧ fbPixel s.fb px py = true) → t.getV 0xF = 0) ∧
      t.dirty = true ∧ (∀ k, k ≠ 0xF → t.getV k = s.getV k) ∧ SameMemory s t ∧
      t = { s with v := t.v, fb := t.fb, dirty := true, pc := t.pc }))

/-- 40_display.md R82: collision is the meeting of a 1 bit with a set pixel; a sprite with one 1 bit, in any row and column of
it, drawn twice collides first iff the pixel under the bit was set, second iff it was unset, and leaves the pixel as it was.
For the second draw the source's sentences disagree, and the statement follows 90_conflicts.md C9 (log 14). -/
def Obligations.CollisionIsSetPixelUnderSpriteBit : Prop :=
  ∀ (s : State) (x0 y0 : Byte) (rows : List Byte), rows.length ≤ 15 →
    ((drawSprite s x0 y0 rows).collision = true ↔
      ∃ j i, ∃ h : j < rows.length, i < 8 ∧ (rows[j]).getLsbD (7 - i) = true ∧
        fbPixel s.fb ((x0.toNat + i) % 64) ((y0.toNat + j) % 32) = true) ∧
    (∀ j i, OnlyBit rows j i →
      let px := (x0.toNat + i) % 64
      let py := (y0.toNat + j) % 32
      let once := drawSprite s x0 y0 rows
      let twice := drawSprite (s.setCanvas once) x0 y0 rows
      once.collision = fbPixel s.fb px py ∧ twice.collision = (!fbPixel s.fb px py) ∧
      fbPixel twice.fb px py = fbPixel s.fb px py)

/-- 40_display.md R81, 95_test_vectors.md S3: drawing the same sprite twice restores the grid. -/
def Obligations.DrawingTwiceRestoresTheGrid : Prop :=
  ∀ (s : State) (x0 y0 : Byte) (rows : List Byte), rows.length ≤ 15 →
    (drawSprite (s.setCanvas (drawSprite s x0 y0 rows)) x0 y0 rows).fb = s.fb

/-- 40_display.md R81: the start coordinates count modulo 64 and modulo 32. -/
def Obligations.StartCoordinatesWrap : Prop :=
  ∀ (s : State) (x0 y0 x1 y1 : Byte) (rows : List Byte),
    x0.toNat % 64 = x1.toNat % 64 → y0.toNat % 32 = y1.toNat % 32 → drawSprite s x0 y0 rows = drawSprite s x1 y1 rows

/-! ## Keypad and timers -/

/-- 44_keypad_timers.md R135, R136, R141. That an index above 15 is fatal is the spec's own decision D8 (logs 1 and 10). -/
def Obligations.KeypadSkips : Prop :=
  ∀ (x : Reg) (s : State),
    (15 < (s.getV x).toNat →
      RaisesFatal .outOfRangeAccess (.skp x) s ∧ RaisesFatal .outOfRangeAccess (.sknp x) s) ∧
    ((s.getV x).toNat ≤ 15 →
      Skips (.skp x) s (s.keys.getLsbD (s.getV x).toNat = true) ∧
      Skips (.sknp x) s (s.keys.getLsbD (s.getV x).toNat = false))

/-- 44_keypad_timers.md R137: the value read is DT before the tick that ends the cycle. -/
def Obligations.DelayTimerIsReadBeforeTheTick : Prop :=
  ∀ (x : Reg) (s : State),
    Sequential (.ldVxDt x) s (fun t => t.getV x = s.dt ∧ RegFrame [x] s t) ∧
    (s.pc.toNat + 2 ≤ 0xFFE → Fetches s (.ldVxDt x) →
      ∃ t, step s = .next t ∧ t.getV x = s.dt ∧ t.dt.toNat = s.dt.toNat - 1 ∧ t.st.toNat = s.st.toNat - 1)

/-- 44_keypad_timers.md R139, R140: what each writes; and over a whole cycle (70_reset_and_hazards.md R176, which the spec
marks as derived) a timer written is ticked in the same cycle, so that the tone is on after `LD ST,Vx` exactly when Vx was
at least 2. -/
def Obligations.TimersWrittenAreTickedInTheSameCycle : Prop :=
  ∀ (x : Reg) (s : State),
    Sequential (.ldDtVx x) s (fun t =>
      t.dt = s.getV x ∧ (∀ k, t.getV k = s.getV k) ∧ SameMemory s t ∧ t = { s with dt := t.dt, pc := t.pc }) ∧
    Sequential (.ldStVx x) s (fun t =>
      t.st = s.getV x ∧ (∀ k, t.getV k = s.getV k) ∧ SameMemory s t ∧ t = { s with st := t.st, pc := t.pc }) ∧
    (s.pc.toNat + 2 ≤ 0xFFE →
      (Fetches s (.ldDtVx x) → ∃ t, step s = .next t ∧ t.dt.toNat = (s.getV x).toNat - 1 ∧
        t.st.toNat = s.st.toNat - 1) ∧
      (Fetches s (.ldStVx x) → ∃ t, step s = .next t ∧ t.st.toNat = (s.getV x).toNat - 1 ∧
        t.dt.toNat = s.dt.toNat - 1 ∧ (t.toneActive = true ↔ 2 ≤ (s.getV x).toNat)))

/-- 44_keypad_timers.md R138: with no key pressed nothing changes and the cycle ends without a tick; with one or more
pressed, whatever the choice (the counter of choices is the model's own, log 6), Vx holds the number of a pressed key and the
cycle ends with the tick. That a level counts as the key press and that the completing cycle ticks are the spec's own
decisions D9 and D10 (log 7). -/
def Obligations.KeyWaitReportsAPressedKey : Prop :=
  ∀ (x : Reg) (s : State),
    (s.keys = 0 → exec (.ldVxK x) s = .next s) ∧
    (s.keys ≠ 0 → Sequential (.ldVxK x) s (fun t =>
      (t.getV x).toNat ≤ 15 ∧ s.keys.getLsbD (t.getV x).toNat = true ∧
      (∀ k, k ≠ x → t.getV k = s.getV k) ∧ SameMemory s t ∧
      t = { s with v := t.v, pc := t.pc, keyDraws := s.keyDraws + 1 })) ∧
    (Fetches s (.ldVxK x) → s.keys ≠ 0 → s.pc.toNat + 2 ≤ 0xFFE →
      ∃ t, step s = .next t ∧ (t.getV x).toNat ≤ 15 ∧ s.keys.getLsbD (t.getV x).toNat = true ∧
        t.pc.toNat = s.pc.toNat + 2 ∧ t.dt.toNat = s.dt.toNat - 1 ∧ t.st.toNat = s.st.toNat - 1)

/-! ## The cycle -/

/-- 20_memory.md R46, R48: with PC in its range the fetch succeeds and the byte at the lower address is the high byte, at an
odd PC as at an even one. -/
def Obligations.FetchIsBigEndian : Prop :=
  ∀ s : State, s.pc.toNat ≤ 0xFFE →
    ∃ op, fetch s = .ok op ∧
      op.toNat = 256 * (memGet s.mem s.pc.toNat).toNat + (memGet s.mem (s.pc.toNat + 1)).toNat

/-- 10_state.md R26, 60_exceptions.md R162: a step of a machine whose bytes at PC decode to an instruction is `exec` of it
on the machine with IR written, and then one tick of both timers, unless the instruction raised a fatal condition or the
cycle is blocked. The tick of the cycle that completes FX0A, and none in a fatal cycle, are the spec's own decisions D10,
D4 and D25 (logs 1, 7, 15). -/
def Obligations.StepRunsTheDecodedInstruction : Prop :=
  ∀ (s : State) (i : Instr), Fetches s i →
    step s =
      (match exec i { s with ir := wordAtPc s } with
      | .next t =>
        if t.halted = true ∨ waitsForKey i s = true then .next t
        else .next { t with dt := ticked t.dt, st := ticked t.st }
      | .fault r => .fault r
      | .refused r => .refused r)

/-- 10_state.md R28: a blocked cycle changes nothing but IR, and the next cycle fetches the same FX0A again. -/
def Obligations.BlockedCycleChangesNothing : Prop :=
  ∀ (s : State) (x : Reg), Fetches s (.ldVxK x) → s.keys = 0 →
    step s = .next { s with ir := wordAtPc s } ∧ Fetches { s with ir := wordAtPc s } (.ldVxK x)

/-- 30_encoding.md R65, 60_exceptions.md R153: a fetched word no row of the opcode map selects halts the machine with
`UnrecognizedOpcode`, and no state changes but IR, the timers included. The spec's own decisions D4 and D25 (logs 1 and 15). -/
def Obligations.UnrecognizedWordHalts : Prop :=
  ∀ s : State, s.halted = false → s.pc.toNat ≤ 0xFFE → (∀ r ∈ opcodeTable, r.selects (wordAtPc s) = false) →
    step s = .next { s with ir := wordAtPc s, fatal := some ⟨.unrecognizedOpcode, wordAtPc s, s.pc⟩ }

/-- 10_state.md R27, 60_exceptions.md R151, R152, R154, R158: for every instruction, which fatal condition it raises, if
any, and the PC it leaves; the ranges of PC and SP are the invariant's (10_state.md R13, R14). The spec's own
decisions in it: D4 what a fatal condition leaves (log 1); D6 the range of the new PC and D7 the unwrapped sum of BNNN (log 9);
D8 the keypad index (log 10); D9 that FX0A completes on any pressed level (log 7); D14 that DXYN with N = 0 is never out of
range (log 14); D18 and D19 the order of the checks (log 15); D23 that RET adds 2 to the popped entry (log 11). -/
def Obligations.EveryInstructionsPcAndFatalCondition : Prop :=
  ∀ (i : Instr) (s : State), s.pc.toNat ≤ 0xFFE → s.sp ≤ 16 → s.fatal = none →
    (∀ c, fatalOf i s = some c → RaisesFatal c i s) ∧
    (fatalOf i s = none → ∃ t, exec i s = .next t ∧ t.fatal = none ∧ t.pc.toNat = newPc i s)

/-- 60_exceptions.md R155, R156: a cycle that halts the machine leaves every piece of state as it was but IR and the
diagnostic, the timers included, and the diagnostic is the fetched word and the PC it came from. The spec's own decisions D4
and D25 (logs 1 and 15). -/
def Obligations.FatalCycleIsPrecise : Prop :=
  ∀ s t : State, s.halted = false → s.pc.toNat ≤ 0xFFE → step s = .next t → t.halted = true →
    t = { s with ir := wordAtPc s, fatal := t.fatal } ∧ t.diagOpcode = some (wordAtPc s) ∧ t.diagPc = some s.pc

/-- 10_state.md R29, the spec's own decision D4 (log 1): a halted machine ignores every later cycle. -/
def Obligations.HaltedIsAbsorbing : Prop :=
  ∀ (n : Nat) (s : State), s.halted = true → core.run n s = .next s

/-- 10_state.md R29, 60_exceptions.md R157: no schedule of events without a `reset` takes a halted machine out of the
halted status or lets an instruction run in it; `reset` does. The spec's own decisions D4 and, for a load, D26 (logs 1
and 18). -/
def Obligations.OnlyResetLeavesHalted : Prop :=
  ∀ (es : List Event) (s t : State), s.halted = true → runEvents es s = .next t →
    ((∀ e ∈ es, e ≠ .reset) →
      t.fatal = s.fatal ∧ t.v = s.v ∧ t.i = s.i ∧ t.pc = s.pc ∧ t.stack = s.stack ∧ t.dt = s.dt ∧ t.st = s.st ∧
      t.fb = s.fb ∧ t.ir = s.ir) ∧
    (∃ u, applyEvent .reset t = .next u ∧ u.halted = false)

/-! ## Whole-machine rules -/

/-- Every fatal condition is a next state of the model (60_exceptions.md R150, R156; log 1), so whatever the host does, a run
never stops with a fault or a refusal. -/
def Obligations.EveryScheduleRunsOn : Prop :=
  ∀ (es : List Event) (s : State), ∃ t, runEvents es s = .next t

/-- 10_state.md R32, the rows with the source's own words: PC, the stack, the timers, and memory zero but for the font set at
0x000 to 0x04F; and the reset operation (70_reset_and_hazards.md R170) puts them there from any state. The 80 values of the
font are no part of this statement (log 4). The operation puts the rest of the machine where `State.reset` has it, at the
chosen values too, and lets the model's counters run on (logs 1, 2, 3, 19). -/
def Obligations.ResetStatedValues : Prop :=
  State.reset.pc = 0x200 ∧ State.reset.sp = 0 ∧ State.reset.dt = 0 ∧ State.reset.st = 0 ∧
  font.length = 80 ∧ (∀ a (h : a < font.length), memGet State.reset.mem a = font[a]) ∧
  (∀ a, 0x050 ≤ a → memGet State.reset.mem a = 0) ∧
  (∀ s : State, ∃ t, applyEvent .reset s = .next t ∧
    t = { State.reset with rndIndex := t.rndIndex, keyDraws := t.keyDraws })

/-- The model's choices at reset where the source states no value: V, I, the keypad, the grid, `dirty` and IR are 0 and the
machine is not halted (the spec's decisions D2, D3 and D4; logs 1, 2 and 3). -/
def Obligations.ResetChosenValues : Prop :=
  (∀ k, State.reset.getV k = 0) ∧ State.reset.i = 0 ∧ State.reset.keys = 0 ∧
  (∀ px py, fbPixel State.reset.fb px py = false) ∧ State.reset.dirty = false ∧ State.reset.ir = 0 ∧
  State.reset.halted = false ∧ State.reset.toneActive = false

/-- The reset state meets the invariant (10_state.md R32 within R12, R13, R14). It rests on the chosen I = 0 (decision D2,
log 2), and on the chosen not halted (decision D4, log 1), with which there is no diagnostic to constrain. -/
def Obligations.ResetMeetsTheInvariant : Prop := State.reset.Inv

/-- 10_state.md R12, R13, R14: from every state that meets the invariant a cycle gives a state that meets it. The PC's
range, the entries being CALL addresses, I unchanged by the transfers, decode coming before every other check and what a
halted machine keeps are the spec's own decisions D6, D23, D13, D19 and D4 (logs 1, 9, 11, 13, 15). -/
def Obligations.StepKeepsTheInvariant : Prop :=
  ∀ s t : State, s.Inv → step s = .next t → t.Inv

/-- The same under every schedule of cycles and host operations (10_state.md R31). With the decisions above it rests on the
chosen reset values of I and of the halted status (decisions D2 and D4, logs 1 and 2) and on D26 for a load (log 18). -/
def Obligations.EveryScheduleKeepsTheInvariant : Prop :=
  ∀ (es : List Event) (s t : State), s.Inv → runEvents es s = .next t → t.Inv

/-- 10_state.md R17 and section 1: no cycle writes the keypad; an instruction leaves IR as the fetch wrote it. -/
def Obligations.KeypadIsWrittenByTheHostAlone : Prop :=
  (∀ s t : State, step s = .next t → t.keys = s.keys) ∧
  (∀ (i : Instr) (s t : State), exec i s = .next t → t.ir = s.ir)

/-- 10_state.md section 1, "Written by": which instructions may change memory, the grid, `dirty`, the stack, I and the
timers; `dirty` is never cleared by one. That FX33, FX55, FX65 and DXYN leave I alone is the spec's own decision D13 (log 13).
A fatal condition writes none of these (decision D4, log 1). -/
def Obligations.EachStorageHasItsWriters : Prop :=
  ∀ (i : Instr) (s t : State), exec i s = .next t →
    (t.mem ≠ s.mem → (∃ x, i = .ldB x) ∨ ∃ x, i = .storeRegs x) ∧
    (t.fb ≠ s.fb ∨ t.dirty ≠ s.dirty → i = .cls ∨ ∃ x y n, i = .drw x y n) ∧
    (s.dirty = true → t.dirty = true) ∧
    (t.stack ≠ s.stack → i = .ret ∨ ∃ nnn, i = .call nnn) ∧
    (t.i ≠ s.i → (∃ nnn, i = .ldI nnn) ∨ (∃ x, i = .addI x) ∨ ∃ x, i = .ldF x) ∧
    (t.dt ≠ s.dt → ∃ x, i = .ldDtVx x) ∧
    (t.st ≠ s.st → ∃ x, i = .ldStVx x)

/-- 10_state.md R30 (the counter is the model's own, log 5): over a cycle one random byte is consumed by a completed CXNN
and none by anything else. -/
def Obligations.OneRandomBytePerCompletedRnd : Prop :=
  ∀ (i : Instr) (s t : State), Fetches s i → step s = .next t →
    ((∃ x nn, i = .rnd x nn) → t.halted = false → t.rndIndex = s.rndIndex + 1) ∧
    ((¬ ∃ x nn, i = .rnd x nn) ∨ t.halted = true → t.rndIndex = s.rndIndex)

/-- 10_state.md R20: `dirty` has no effect on any instruction; two machines that differ in it alone stay so. -/
def Obligations.DirtyAffectsNothing : Prop :=
  ∀ (s t : State) (b : Bool), step s = .next t →
    ∃ t', step { s with dirty := b } = .next t' ∧ t' = { t with dirty := t'.dirty }

/-- 10_state.md R21: no instruction can read what IR held before its own fetch. -/
def Obligations.OldOpcodeLatchIsNeverRead : Prop :=
  ∀ (s : State) (w : Word), s.halted = false → s.pc.toNat ≤ 0xFFE → step { s with ir := w } = step s

/-! ## Host operations -/

/-- 70_reset_and_hazards.md R172, R173. That nothing but the bytes is written is the spec's own decision D26 (log 18). -/
def Obligations.LoadProgramCopiesBytes : Prop :=
  ∀ (bytes : List Byte) (s : State),
    (bytes.length ≤ 3584 → ∃ t, loadProgram bytes s = .ok t ∧
      (∀ k (h : k < bytes.length), memGet t.mem (0x200 + k) = bytes[k]) ∧
      (∀ a, a < 0x200 ∨ 0x200 + bytes.length ≤ a → memGet t.mem a = memGet s.mem a) ∧
      t = { s with mem := t.mem }) ∧
    (3584 < bytes.length → loadProgram bytes s = .error .oversized ∧
      applyEvent (.loadProgram bytes) s = .next s)

/-- 10_state.md R17 and 40_display.md R83: `set_key` writes one key, `take_dirty` answers and clears `dirty`, the spec's own
decision D28 (log 16). -/
def Obligations.KeyAndDirtyOperations : Prop :=
  ∀ (k : Nibble) (b : Bool) (s : State),
    (setKey k b s).keyDown k.toNat = b ∧ (∀ j, j < 16 → j ≠ k.toNat → (setKey k b s).keyDown j = s.keyDown j) ∧
    setKey k b s = { s with keys := (setKey k b s).keys } ∧
    (takeDirty s).1 = s.dirty ∧ (takeDirty s).2 = { s with dirty := false }
end

