-- ==== Sys2Proof/Laws/Encoding.lean ====
section
/-!
SUPPORT. The fields of a word laid out as 30_encoding.md R61 says, read back one by one, and a word put together again
from its fields.
-/

namespace Sys2Proof

variable (a x y n : BitVec 4) (nn : Byte) (nnn : Addr)

theorem bit_nnn (k : Nat) :
    BitVec.getLsbD (w := 16) (a ++ nnn) k = if k < 12 then nnn.getLsbD k else a.getLsbD (k - 12) := by
  simpa using BitVec.getLsbD_append (x := a) (y := nnn) (i := k)

theorem bit_byte (k : Nat) :
    BitVec.getLsbD (w := 8) (a ++ x) k = if k < 4 then x.getLsbD k else a.getLsbD (k - 4) := by
  simpa using BitVec.getLsbD_append (x := a) (y := x) (i := k)

theorem bit_word (hi lo : Byte) (k : Nat) :
    BitVec.getLsbD (w := 16) (hi ++ lo) k = if k < 8 then lo.getLsbD k else hi.getLsbD (k - 8) := by
  simpa using BitVec.getLsbD_append (x := hi) (y := lo) (i := k)

@[simp] theorem opA_nnn : opA (a ++ nnn) = a := by
  apply BitVec.eq_of_getLsbD_eq
  intro k hk
  simp only [opA, BitVec.getLsbD_extractLsb', bit_nnn, hk, decide_true, Bool.true_and]
  simp

@[simp] theorem opNNN_nnn : opNNN (a ++ nnn) = nnn := by
  apply BitVec.eq_of_getLsbD_eq
  intro k hk
  simp only [opNNN, BitVec.getLsbD_extractLsb', bit_nnn, Nat.zero_add, hk, decide_true, Bool.true_and, if_true]

@[simp] theorem opNN_xnn : opNN ((a ++ x) ++ nn) = nn := by
  apply BitVec.eq_of_getLsbD_eq
  intro k hk
  simp only [opNN, BitVec.getLsbD_extractLsb']
  erw [bit_word]
  simp [hk]

@[simp] theorem opA_xnn : opA ((a ++ x) ++ nn) = a := by
  apply BitVec.eq_of_getLsbD_eq
  intro k hk
  simp only [opA, BitVec.getLsbD_extractLsb']
  have h : 12 + k - 8 = 4 + k := by omega
  have h2 : ¬ 12 + k < 8 := by omega
  erw [bit_word, h, bit_byte]
  simp [hk, h2]

@[simp] theorem opX_xnn : opX ((a ++ x) ++ nn) = x := by
  apply BitVec.eq_of_getLsbD_eq
  intro k hk
  simp only [opX, BitVec.getLsbD_extractLsb']
  have h : 8 + k - 8 = k := by omega
  erw [bit_word, h, bit_byte]
  simp [hk]

@[simp] theorem opY_xyn : opY ((a ++ x) ++ (y ++ n)) = y := by
  apply BitVec.eq_of_getLsbD_eq
  intro k hk
  simp only [opY, BitVec.getLsbD_extractLsb']
  have h : 4 + k < 8 := by omega
  erw [bit_word, bit_byte]
  simp [hk, h]

@[simp] theorem opN_xyn : opN ((a ++ x) ++ (y ++ n)) = n := by
  apply BitVec.eq_of_getLsbD_eq
  intro k hk
  simp only [opN, BitVec.getLsbD_extractLsb', Nat.zero_add]
  have h : k < 8 := by omega
  erw [bit_word, bit_byte]
  simp [hk, h]

/-- A word is its fields put together again (R61). -/
theorem word_of_nnn (op : Word) : opA op ++ opNNN op = op := by
  apply BitVec.eq_of_getLsbD_eq
  intro k hk
  erw [bit_nnn]
  simp only [opA, opNNN, BitVec.getLsbD_extractLsb']
  split
  · simp [*]
  · have h1 : k - 12 < 4 := by omega
    have h2 : 12 + (k - 12) = k := by omega
    simp [h1, h2]

theorem word_of_xnn (op : Word) : (opA op ++ opX op) ++ opNN op = op := by
  apply BitVec.eq_of_getLsbD_eq
  intro k hk
  erw [bit_word, bit_byte]
  simp only [opA, opX, opNN, BitVec.getLsbD_extractLsb']
  split
  · simp [*]
  · split
    · have h2 : 8 + (k - 8) = k := by omega
      simp [*]
    · have h1 : k - 8 - 4 < 4 := by omega
      have h2 : 12 + (k - 8 - 4) = k := by omega
      simp [h1, h2]

theorem byte_of_yn (op : Word) : opY op ++ opN op = opNN op := by
  apply BitVec.eq_of_getLsbD_eq
  intro k hk
  erw [bit_byte]
  simp only [opY, opN, opNN, BitVec.getLsbD_extractLsb']
  split
  · have : k < 8 := by omega
    simp [*]
  · have h1 : k - 4 < 4 := by omega
    have h2 : 4 + (k - 4) = k := by omega
    have h3 : k < 8 := by omega
    simp [h1, h2, h3]

theorem word_of_xyn (op : Word) : (opA op ++ opX op) ++ (opY op ++ opN op) = op := by
  rw [byte_of_yn]
  exact word_of_xnn op

/-- Masking a layout masks its fields. -/
theorem and_layout_nnn (b : BitVec 4) (m : Addr) : (a ++ nnn) &&& (b ++ m) = (a &&& b) ++ (nnn &&& m) := by
  rw [BitVec.and_append]

/-- Masking a layout masks its fields. -/
theorem and_layout_xnn (b z : BitVec 4) (m : Byte) :
    ((a ++ x) ++ nn) &&& ((b ++ z) ++ m) = ((a &&& b) ++ (x &&& z)) ++ (nn &&& m) := by
  rw [BitVec.and_append, BitVec.and_append]

end Sys2Proof
end

