-- ==== Sys2Proof/Laws/State.lean ====
section
/-!
SUPPORT. One lemma per field per update of State: what each update writes and that it leaves every other field alone.
-/

namespace Sys2Proof.Machine

variable (s : State)

@[simp] theorem State.setV_v (x : Reg) (b : Byte) : (s.setV x b).v = s.v.set x.toNat b x.isLt := rfl
@[simp] theorem State.setV_i (x : Reg) (b : Byte) : (s.setV x b).i = s.i := rfl
@[simp] theorem State.setV_pc (x : Reg) (b : Byte) : (s.setV x b).pc = s.pc := rfl
@[simp] theorem State.setV_stack (x : Reg) (b : Byte) : (s.setV x b).stack = s.stack := rfl
@[simp] theorem State.setV_dt (x : Reg) (b : Byte) : (s.setV x b).dt = s.dt := rfl
@[simp] theorem State.setV_st (x : Reg) (b : Byte) : (s.setV x b).st = s.st := rfl
@[simp] theorem State.setV_keys (x : Reg) (b : Byte) : (s.setV x b).keys = s.keys := rfl
@[simp] theorem State.setV_mem (x : Reg) (b : Byte) : (s.setV x b).mem = s.mem := rfl
@[simp] theorem State.setV_fb (x : Reg) (b : Byte) : (s.setV x b).fb = s.fb := rfl
@[simp] theorem State.setV_dirty (x : Reg) (b : Byte) : (s.setV x b).dirty = s.dirty := rfl
@[simp] theorem State.setV_ir (x : Reg) (b : Byte) : (s.setV x b).ir = s.ir := rfl
@[simp] theorem State.setV_fatal (x : Reg) (b : Byte) : (s.setV x b).fatal = s.fatal := rfl
@[simp] theorem State.setV_rndIndex (x : Reg) (b : Byte) : (s.setV x b).rndIndex = s.rndIndex := rfl
@[simp] theorem State.setV_keyDraws (x : Reg) (b : Byte) : (s.setV x b).keyDraws = s.keyDraws := rfl

@[simp] theorem State.setI_v (w : Word) : (s.setI w).v = s.v := rfl
@[simp] theorem State.setI_i (w : Word) : (s.setI w).i = w := rfl
@[simp] theorem State.setI_pc (w : Word) : (s.setI w).pc = s.pc := rfl
@[simp] theorem State.setI_stack (w : Word) : (s.setI w).stack = s.stack := rfl
@[simp] theorem State.setI_dt (w : Word) : (s.setI w).dt = s.dt := rfl
@[simp] theorem State.setI_st (w : Word) : (s.setI w).st = s.st := rfl
@[simp] theorem State.setI_keys (w : Word) : (s.setI w).keys = s.keys := rfl
@[simp] theorem State.setI_mem (w : Word) : (s.setI w).mem = s.mem := rfl
@[simp] theorem State.setI_fb (w : Word) : (s.setI w).fb = s.fb := rfl
@[simp] theorem State.setI_dirty (w : Word) : (s.setI w).dirty = s.dirty := rfl
@[simp] theorem State.setI_ir (w : Word) : (s.setI w).ir = s.ir := rfl
@[simp] theorem State.setI_fatal (w : Word) : (s.setI w).fatal = s.fatal := rfl
@[simp] theorem State.setI_rndIndex (w : Word) : (s.setI w).rndIndex = s.rndIndex := rfl
@[simp] theorem State.setI_keyDraws (w : Word) : (s.setI w).keyDraws = s.keyDraws := rfl

@[simp] theorem State.setPc_v (w : Word) : (s.setPc w).v = s.v := rfl
@[simp] theorem State.setPc_i (w : Word) : (s.setPc w).i = s.i := rfl
@[simp] theorem State.setPc_pc (w : Word) : (s.setPc w).pc = w := rfl
@[simp] theorem State.setPc_stack (w : Word) : (s.setPc w).stack = s.stack := rfl
@[simp] theorem State.setPc_dt (w : Word) : (s.setPc w).dt = s.dt := rfl
@[simp] theorem State.setPc_st (w : Word) : (s.setPc w).st = s.st := rfl
@[simp] theorem State.setPc_keys (w : Word) : (s.setPc w).keys = s.keys := rfl
@[simp] theorem State.setPc_mem (w : Word) : (s.setPc w).mem = s.mem := rfl
@[simp] theorem State.setPc_fb (w : Word) : (s.setPc w).fb = s.fb := rfl
@[simp] theorem State.setPc_dirty (w : Word) : (s.setPc w).dirty = s.dirty := rfl
@[simp] theorem State.setPc_ir (w : Word) : (s.setPc w).ir = s.ir := rfl
@[simp] theorem State.setPc_fatal (w : Word) : (s.setPc w).fatal = s.fatal := rfl
@[simp] theorem State.setPc_rndIndex (w : Word) : (s.setPc w).rndIndex = s.rndIndex := rfl
@[simp] theorem State.setPc_keyDraws (w : Word) : (s.setPc w).keyDraws = s.keyDraws := rfl

@[simp] theorem State.setDt_v (b : Byte) : (s.setDt b).v = s.v := rfl
@[simp] theorem State.setDt_i (b : Byte) : (s.setDt b).i = s.i := rfl
@[simp] theorem State.setDt_pc (b : Byte) : (s.setDt b).pc = s.pc := rfl
@[simp] theorem State.setDt_stack (b : Byte) : (s.setDt b).stack = s.stack := rfl
@[simp] theorem State.setDt_dt (b : Byte) : (s.setDt b).dt = b := rfl
@[simp] theorem State.setDt_st (b : Byte) : (s.setDt b).st = s.st := rfl
@[simp] theorem State.setDt_keys (b : Byte) : (s.setDt b).keys = s.keys := rfl
@[simp] theorem State.setDt_mem (b : Byte) : (s.setDt b).mem = s.mem := rfl
@[simp] theorem State.setDt_fb (b : Byte) : (s.setDt b).fb = s.fb := rfl
@[simp] theorem State.setDt_dirty (b : Byte) : (s.setDt b).dirty = s.dirty := rfl
@[simp] theorem State.setDt_ir (b : Byte) : (s.setDt b).ir = s.ir := rfl
@[simp] theorem State.setDt_fatal (b : Byte) : (s.setDt b).fatal = s.fatal := rfl
@[simp] theorem State.setDt_rndIndex (b : Byte) : (s.setDt b).rndIndex = s.rndIndex := rfl
@[simp] theorem State.setDt_keyDraws (b : Byte) : (s.setDt b).keyDraws = s.keyDraws := rfl

@[simp] theorem State.setSt_v (b : Byte) : (s.setSt b).v = s.v := rfl
@[simp] theorem State.setSt_i (b : Byte) : (s.setSt b).i = s.i := rfl
@[simp] theorem State.setSt_pc (b : Byte) : (s.setSt b).pc = s.pc := rfl
@[simp] theorem State.setSt_stack (b : Byte) : (s.setSt b).stack = s.stack := rfl
@[simp] theorem State.setSt_dt (b : Byte) : (s.setSt b).dt = s.dt := rfl
@[simp] theorem State.setSt_st (b : Byte) : (s.setSt b).st = b := rfl
@[simp] theorem State.setSt_keys (b : Byte) : (s.setSt b).keys = s.keys := rfl
@[simp] theorem State.setSt_mem (b : Byte) : (s.setSt b).mem = s.mem := rfl
@[simp] theorem State.setSt_fb (b : Byte) : (s.setSt b).fb = s.fb := rfl
@[simp] theorem State.setSt_dirty (b : Byte) : (s.setSt b).dirty = s.dirty := rfl
@[simp] theorem State.setSt_ir (b : Byte) : (s.setSt b).ir = s.ir := rfl
@[simp] theorem State.setSt_fatal (b : Byte) : (s.setSt b).fatal = s.fatal := rfl
@[simp] theorem State.setSt_rndIndex (b : Byte) : (s.setSt b).rndIndex = s.rndIndex := rfl
@[simp] theorem State.setSt_keyDraws (b : Byte) : (s.setSt b).keyDraws = s.keyDraws := rfl

@[simp] theorem State.setMem_v (m : Memory) : (s.setMem m).v = s.v := rfl
@[simp] theorem State.setMem_i (m : Memory) : (s.setMem m).i = s.i := rfl
@[simp] theorem State.setMem_pc (m : Memory) : (s.setMem m).pc = s.pc := rfl
@[simp] theorem State.setMem_stack (m : Memory) : (s.setMem m).stack = s.stack := rfl
@[simp] theorem State.setMem_dt (m : Memory) : (s.setMem m).dt = s.dt := rfl
@[simp] theorem State.setMem_st (m : Memory) : (s.setMem m).st = s.st := rfl
@[simp] theorem State.setMem_keys (m : Memory) : (s.setMem m).keys = s.keys := rfl
@[simp] theorem State.setMem_mem (m : Memory) : (s.setMem m).mem = m := rfl
@[simp] theorem State.setMem_fb (m : Memory) : (s.setMem m).fb = s.fb := rfl
@[simp] theorem State.setMem_dirty (m : Memory) : (s.setMem m).dirty = s.dirty := rfl
@[simp] theorem State.setMem_ir (m : Memory) : (s.setMem m).ir = s.ir := rfl
@[simp] theorem State.setMem_fatal (m : Memory) : (s.setMem m).fatal = s.fatal := rfl
@[simp] theorem State.setMem_rndIndex (m : Memory) : (s.setMem m).rndIndex = s.rndIndex := rfl
@[simp] theorem State.setMem_keyDraws (m : Memory) : (s.setMem m).keyDraws = s.keyDraws := rfl

@[simp] theorem State.setIr_v (w : Word) : (s.setIr w).v = s.v := rfl
@[simp] theorem State.setIr_i (w : Word) : (s.setIr w).i = s.i := rfl
@[simp] theorem State.setIr_pc (w : Word) : (s.setIr w).pc = s.pc := rfl
@[simp] theorem State.setIr_stack (w : Word) : (s.setIr w).stack = s.stack := rfl
@[simp] theorem State.setIr_dt (w : Word) : (s.setIr w).dt = s.dt := rfl
@[simp] theorem State.setIr_st (w : Word) : (s.setIr w).st = s.st := rfl
@[simp] theorem State.setIr_keys (w : Word) : (s.setIr w).keys = s.keys := rfl
@[simp] theorem State.setIr_mem (w : Word) : (s.setIr w).mem = s.mem := rfl
@[simp] theorem State.setIr_fb (w : Word) : (s.setIr w).fb = s.fb := rfl
@[simp] theorem State.setIr_dirty (w : Word) : (s.setIr w).dirty = s.dirty := rfl
@[simp] theorem State.setIr_ir (w : Word) : (s.setIr w).ir = w := rfl
@[simp] theorem State.setIr_fatal (w : Word) : (s.setIr w).fatal = s.fatal := rfl
@[simp] theorem State.setIr_rndIndex (w : Word) : (s.setIr w).rndIndex = s.rndIndex := rfl
@[simp] theorem State.setIr_keyDraws (w : Word) : (s.setIr w).keyDraws = s.keyDraws := rfl

@[simp] theorem State.setRegs_v (bs : List Byte) : (s.setRegs bs).v = regsSetN s.v 0 bs := rfl
@[simp] theorem State.setRegs_i (bs : List Byte) : (s.setRegs bs).i = s.i := rfl
@[simp] theorem State.setRegs_pc (bs : List Byte) : (s.setRegs bs).pc = s.pc := rfl
@[simp] theorem State.setRegs_stack (bs : List Byte) : (s.setRegs bs).stack = s.stack := rfl
@[simp] theorem State.setRegs_dt (bs : List Byte) : (s.setRegs bs).dt = s.dt := rfl
@[simp] theorem State.setRegs_st (bs : List Byte) : (s.setRegs bs).st = s.st := rfl
@[simp] theorem State.setRegs_keys (bs : List Byte) : (s.setRegs bs).keys = s.keys := rfl
@[simp] theorem State.setRegs_mem (bs : List Byte) : (s.setRegs bs).mem = s.mem := rfl
@[simp] theorem State.setRegs_fb (bs : List Byte) : (s.setRegs bs).fb = s.fb := rfl
@[simp] theorem State.setRegs_dirty (bs : List Byte) : (s.setRegs bs).dirty = s.dirty := rfl
@[simp] theorem State.setRegs_ir (bs : List Byte) : (s.setRegs bs).ir = s.ir := rfl
@[simp] theorem State.setRegs_fatal (bs : List Byte) : (s.setRegs bs).fatal = s.fatal := rfl
@[simp] theorem State.setRegs_rndIndex (bs : List Byte) : (s.setRegs bs).rndIndex = s.rndIndex := rfl
@[simp] theorem State.setRegs_keyDraws (bs : List Byte) : (s.setRegs bs).keyDraws = s.keyDraws := rfl

@[simp] theorem State.push_v (w : Word) : (s.push w).v = s.v := rfl
@[simp] theorem State.push_i (w : Word) : (s.push w).i = s.i := rfl
@[simp] theorem State.push_pc (w : Word) : (s.push w).pc = s.pc := rfl
@[simp] theorem State.push_stack (w : Word) : (s.push w).stack = s.stack ++ [w] := rfl
@[simp] theorem State.push_dt (w : Word) : (s.push w).dt = s.dt := rfl
@[simp] theorem State.push_st (w : Word) : (s.push w).st = s.st := rfl
@[simp] theorem State.push_keys (w : Word) : (s.push w).keys = s.keys := rfl
@[simp] theorem State.push_mem (w : Word) : (s.push w).mem = s.mem := rfl
@[simp] theorem State.push_fb (w : Word) : (s.push w).fb = s.fb := rfl
@[simp] theorem State.push_dirty (w : Word) : (s.push w).dirty = s.dirty := rfl
@[simp] theorem State.push_ir (w : Word) : (s.push w).ir = s.ir := rfl
@[simp] theorem State.push_fatal (w : Word) : (s.push w).fatal = s.fatal := rfl
@[simp] theorem State.push_rndIndex (w : Word) : (s.push w).rndIndex = s.rndIndex := rfl
@[simp] theorem State.push_keyDraws (w : Word) : (s.push w).keyDraws = s.keyDraws := rfl

@[simp] theorem State.pop_v : (s.pop).v = s.v := rfl
@[simp] theorem State.pop_i : (s.pop).i = s.i := rfl
@[simp] theorem State.pop_pc : (s.pop).pc = s.pc := rfl
@[simp] theorem State.pop_stack : (s.pop).stack = s.stack.dropLast := rfl
@[simp] theorem State.pop_dt : (s.pop).dt = s.dt := rfl
@[simp] theorem State.pop_st : (s.pop).st = s.st := rfl
@[simp] theorem State.pop_keys : (s.pop).keys = s.keys := rfl
@[simp] theorem State.pop_mem : (s.pop).mem = s.mem := rfl
@[simp] theorem State.pop_fb : (s.pop).fb = s.fb := rfl
@[simp] theorem State.pop_dirty : (s.pop).dirty = s.dirty := rfl
@[simp] theorem State.pop_ir : (s.pop).ir = s.ir := rfl
@[simp] theorem State.pop_fatal : (s.pop).fatal = s.fatal := rfl
@[simp] theorem State.pop_rndIndex : (s.pop).rndIndex = s.rndIndex := rfl
@[simp] theorem State.pop_keyDraws : (s.pop).keyDraws = s.keyDraws := rfl

@[simp] theorem State.drawRandom_v : (s.drawRandom).v = s.v := rfl
@[simp] theorem State.drawRandom_i : (s.drawRandom).i = s.i := rfl
@[simp] theorem State.drawRandom_pc : (s.drawRandom).pc = s.pc := rfl
@[simp] theorem State.drawRandom_stack : (s.drawRandom).stack = s.stack := rfl
@[simp] theorem State.drawRandom_dt : (s.drawRandom).dt = s.dt := rfl
@[simp] theorem State.drawRandom_st : (s.drawRandom).st = s.st := rfl
@[simp] theorem State.drawRandom_keys : (s.drawRandom).keys = s.keys := rfl
@[simp] theorem State.drawRandom_mem : (s.drawRandom).mem = s.mem := rfl
@[simp] theorem State.drawRandom_fb : (s.drawRandom).fb = s.fb := rfl
@[simp] theorem State.drawRandom_dirty : (s.drawRandom).dirty = s.dirty := rfl
@[simp] theorem State.drawRandom_ir : (s.drawRandom).ir = s.ir := rfl
@[simp] theorem State.drawRandom_fatal : (s.drawRandom).fatal = s.fatal := rfl
@[simp] theorem State.drawRandom_rndIndex : (s.drawRandom).rndIndex = s.rndIndex + 1 := rfl
@[simp] theorem State.drawRandom_keyDraws : (s.drawRandom).keyDraws = s.keyDraws := rfl

@[simp] theorem State.drawKey_v : (s.drawKey).v = s.v := rfl
@[simp] theorem State.drawKey_i : (s.drawKey).i = s.i := rfl
@[simp] theorem State.drawKey_pc : (s.drawKey).pc = s.pc := rfl
@[simp] theorem State.drawKey_stack : (s.drawKey).stack = s.stack := rfl
@[simp] theorem State.drawKey_dt : (s.drawKey).dt = s.dt := rfl
@[simp] theorem State.drawKey_st : (s.drawKey).st = s.st := rfl
@[simp] theorem State.drawKey_keys : (s.drawKey).keys = s.keys := rfl
@[simp] theorem State.drawKey_mem : (s.drawKey).mem = s.mem := rfl
@[simp] theorem State.drawKey_fb : (s.drawKey).fb = s.fb := rfl
@[simp] theorem State.drawKey_dirty : (s.drawKey).dirty = s.dirty := rfl
@[simp] theorem State.drawKey_ir : (s.drawKey).ir = s.ir := rfl
@[simp] theorem State.drawKey_fatal : (s.drawKey).fatal = s.fatal := rfl
@[simp] theorem State.drawKey_rndIndex : (s.drawKey).rndIndex = s.rndIndex := rfl
@[simp] theorem State.drawKey_keyDraws : (s.drawKey).keyDraws = s.keyDraws + 1 := rfl

@[simp] theorem State.setCanvas_v (c : Canvas) : (s.setCanvas c).v = s.v := rfl
@[simp] theorem State.setCanvas_i (c : Canvas) : (s.setCanvas c).i = s.i := rfl
@[simp] theorem State.setCanvas_pc (c : Canvas) : (s.setCanvas c).pc = s.pc := rfl
@[simp] theorem State.setCanvas_stack (c : Canvas) : (s.setCanvas c).stack = s.stack := rfl
@[simp] theorem State.setCanvas_dt (c : Canvas) : (s.setCanvas c).dt = s.dt := rfl
@[simp] theorem State.setCanvas_st (c : Canvas) : (s.setCanvas c).st = s.st := rfl
@[simp] theorem State.setCanvas_keys (c : Canvas) : (s.setCanvas c).keys = s.keys := rfl
@[simp] theorem State.setCanvas_mem (c : Canvas) : (s.setCanvas c).mem = s.mem := rfl
@[simp] theorem State.setCanvas_fb (c : Canvas) : (s.setCanvas c).fb = c.fb := rfl
@[simp] theorem State.setCanvas_dirty (c : Canvas) : (s.setCanvas c).dirty = c.dirty := rfl
@[simp] theorem State.setCanvas_ir (c : Canvas) : (s.setCanvas c).ir = s.ir := rfl
@[simp] theorem State.setCanvas_fatal (c : Canvas) : (s.setCanvas c).fatal = s.fatal := rfl
@[simp] theorem State.setCanvas_rndIndex (c : Canvas) : (s.setCanvas c).rndIndex = s.rndIndex := rfl
@[simp] theorem State.setCanvas_keyDraws (c : Canvas) : (s.setCanvas c).keyDraws = s.keyDraws := rfl

@[simp] theorem State.markDirty_v : (s.markDirty).v = s.v := rfl
@[simp] theorem State.markDirty_i : (s.markDirty).i = s.i := rfl
@[simp] theorem State.markDirty_pc : (s.markDirty).pc = s.pc := rfl
@[simp] theorem State.markDirty_stack : (s.markDirty).stack = s.stack := rfl
@[simp] theorem State.markDirty_dt : (s.markDirty).dt = s.dt := rfl
@[simp] theorem State.markDirty_st : (s.markDirty).st = s.st := rfl
@[simp] theorem State.markDirty_keys : (s.markDirty).keys = s.keys := rfl
@[simp] theorem State.markDirty_mem : (s.markDirty).mem = s.mem := rfl
@[simp] theorem State.markDirty_fb : (s.markDirty).fb = s.fb := rfl
@[simp] theorem State.markDirty_dirty : (s.markDirty).dirty = true := rfl
@[simp] theorem State.markDirty_ir : (s.markDirty).ir = s.ir := rfl
@[simp] theorem State.markDirty_fatal : (s.markDirty).fatal = s.fatal := rfl
@[simp] theorem State.markDirty_rndIndex : (s.markDirty).rndIndex = s.rndIndex := rfl
@[simp] theorem State.markDirty_keyDraws : (s.markDirty).keyDraws = s.keyDraws := rfl

@[simp] theorem clearScreen_v : (clearScreen s).v = s.v := rfl
@[simp] theorem clearScreen_i : (clearScreen s).i = s.i := rfl
@[simp] theorem clearScreen_pc : (clearScreen s).pc = s.pc := rfl
@[simp] theorem clearScreen_stack : (clearScreen s).stack = s.stack := rfl
@[simp] theorem clearScreen_dt : (clearScreen s).dt = s.dt := rfl
@[simp] theorem clearScreen_st : (clearScreen s).st = s.st := rfl
@[simp] theorem clearScreen_keys : (clearScreen s).keys = s.keys := rfl
@[simp] theorem clearScreen_mem : (clearScreen s).mem = s.mem := rfl
@[simp] theorem clearScreen_fb : (clearScreen s).fb = fbBlank := rfl
@[simp] theorem clearScreen_dirty : (clearScreen s).dirty = true := rfl
@[simp] theorem clearScreen_ir : (clearScreen s).ir = s.ir := rfl
@[simp] theorem clearScreen_fatal : (clearScreen s).fatal = s.fatal := rfl
@[simp] theorem clearScreen_rndIndex : (clearScreen s).rndIndex = s.rndIndex := rfl
@[simp] theorem clearScreen_keyDraws : (clearScreen s).keyDraws = s.keyDraws := rfl

@[simp] theorem tickTimers_v : (tickTimers s).v = s.v := rfl
@[simp] theorem tickTimers_i : (tickTimers s).i = s.i := rfl
@[simp] theorem tickTimers_pc : (tickTimers s).pc = s.pc := rfl
@[simp] theorem tickTimers_stack : (tickTimers s).stack = s.stack := rfl
@[simp] theorem tickTimers_dt : (tickTimers s).dt = tickByte s.dt := rfl
@[simp] theorem tickTimers_st : (tickTimers s).st = tickByte s.st := rfl
@[simp] theorem tickTimers_keys : (tickTimers s).keys = s.keys := rfl
@[simp] theorem tickTimers_mem : (tickTimers s).mem = s.mem := rfl
@[simp] theorem tickTimers_fb : (tickTimers s).fb = s.fb := rfl
@[simp] theorem tickTimers_dirty : (tickTimers s).dirty = s.dirty := rfl
@[simp] theorem tickTimers_ir : (tickTimers s).ir = s.ir := rfl
@[simp] theorem tickTimers_fatal : (tickTimers s).fatal = s.fatal := rfl
@[simp] theorem tickTimers_rndIndex : (tickTimers s).rndIndex = s.rndIndex := rfl
@[simp] theorem tickTimers_keyDraws : (tickTimers s).keyDraws = s.keyDraws := rfl

@[simp] theorem fatalEntry_v (c : Cause) : (fatalEntry c s).v = s.v := rfl
@[simp] theorem fatalEntry_i (c : Cause) : (fatalEntry c s).i = s.i := rfl
@[simp] theorem fatalEntry_pc (c : Cause) : (fatalEntry c s).pc = s.pc := rfl
@[simp] theorem fatalEntry_stack (c : Cause) : (fatalEntry c s).stack = s.stack := rfl
@[simp] theorem fatalEntry_dt (c : Cause) : (fatalEntry c s).dt = s.dt := rfl
@[simp] theorem fatalEntry_st (c : Cause) : (fatalEntry c s).st = s.st := rfl
@[simp] theorem fatalEntry_keys (c : Cause) : (fatalEntry c s).keys = s.keys := rfl
@[simp] theorem fatalEntry_mem (c : Cause) : (fatalEntry c s).mem = s.mem := rfl
@[simp] theorem fatalEntry_fb (c : Cause) : (fatalEntry c s).fb = s.fb := rfl
@[simp] theorem fatalEntry_dirty (c : Cause) : (fatalEntry c s).dirty = s.dirty := rfl
@[simp] theorem fatalEntry_ir (c : Cause) : (fatalEntry c s).ir = s.ir := rfl
@[simp] theorem fatalEntry_fatal (c : Cause) : (fatalEntry c s).fatal = some ⟨c, s.ir, s.pc⟩ := rfl
@[simp] theorem fatalEntry_rndIndex (c : Cause) : (fatalEntry c s).rndIndex = s.rndIndex := rfl
@[simp] theorem fatalEntry_keyDraws (c : Cause) : (fatalEntry c s).keyDraws = s.keyDraws := rfl

@[simp] theorem State.setResultFlag_i (x : Reg) (r f : Byte) : (s.setResultFlag x r f).i = s.i := rfl
@[simp] theorem State.setResultFlag_pc (x : Reg) (r f : Byte) : (s.setResultFlag x r f).pc = s.pc := rfl
@[simp] theorem State.setResultFlag_stack (x : Reg) (r f : Byte) : (s.setResultFlag x r f).stack = s.stack := rfl
@[simp] theorem State.setResultFlag_dt (x : Reg) (r f : Byte) : (s.setResultFlag x r f).dt = s.dt := rfl
@[simp] theorem State.setResultFlag_st (x : Reg) (r f : Byte) : (s.setResultFlag x r f).st = s.st := rfl
@[simp] theorem State.setResultFlag_keys (x : Reg) (r f : Byte) : (s.setResultFlag x r f).keys = s.keys := rfl
@[simp] theorem State.setResultFlag_mem (x : Reg) (r f : Byte) : (s.setResultFlag x r f).mem = s.mem := rfl
@[simp] theorem State.setResultFlag_fb (x : Reg) (r f : Byte) : (s.setResultFlag x r f).fb = s.fb := rfl
@[simp] theorem State.setResultFlag_dirty (x : Reg) (r f : Byte) : (s.setResultFlag x r f).dirty = s.dirty := rfl
@[simp] theorem State.setResultFlag_ir (x : Reg) (r f : Byte) : (s.setResultFlag x r f).ir = s.ir := rfl
@[simp] theorem State.setResultFlag_fatal (x : Reg) (r f : Byte) : (s.setResultFlag x r f).fatal = s.fatal := rfl
@[simp] theorem State.setResultFlag_rndIndex (x : Reg) (r f : Byte) : (s.setResultFlag x r f).rndIndex = s.rndIndex := rfl
@[simp] theorem State.setResultFlag_keyDraws (x : Reg) (r f : Byte) : (s.setResultFlag x r f).keyDraws = s.keyDraws := rfl

@[simp] theorem drawEffect_i (x y : Reg) (rows : List Byte) : (drawEffect s x y rows).i = s.i := rfl
@[simp] theorem drawEffect_pc (x y : Reg) (rows : List Byte) : (drawEffect s x y rows).pc = s.pc := rfl
@[simp] theorem drawEffect_stack (x y : Reg) (rows : List Byte) : (drawEffect s x y rows).stack = s.stack := rfl
@[simp] theorem drawEffect_dt (x y : Reg) (rows : List Byte) : (drawEffect s x y rows).dt = s.dt := rfl
@[simp] theorem drawEffect_st (x y : Reg) (rows : List Byte) : (drawEffect s x y rows).st = s.st := rfl
@[simp] theorem drawEffect_keys (x y : Reg) (rows : List Byte) : (drawEffect s x y rows).keys = s.keys := rfl
@[simp] theorem drawEffect_mem (x y : Reg) (rows : List Byte) : (drawEffect s x y rows).mem = s.mem := rfl
@[simp] theorem drawEffect_fb (x y : Reg) (rows : List Byte) : (drawEffect s x y rows).fb = (drawSprite s (s.getV x) (s.getV y) rows).fb := rfl
@[simp] theorem drawEffect_dirty (x y : Reg) (rows : List Byte) : (drawEffect s x y rows).dirty = true := rfl
@[simp] theorem drawEffect_ir (x y : Reg) (rows : List Byte) : (drawEffect s x y rows).ir = s.ir := rfl
@[simp] theorem drawEffect_fatal (x y : Reg) (rows : List Byte) : (drawEffect s x y rows).fatal = s.fatal := rfl
@[simp] theorem drawEffect_rndIndex (x y : Reg) (rows : List Byte) : (drawEffect s x y rows).rndIndex = s.rndIndex := rfl
@[simp] theorem drawEffect_keyDraws (x y : Reg) (rows : List Byte) : (drawEffect s x y rows).keyDraws = s.keyDraws := rfl

end Sys2Proof.Machine
end

