-- ==== Sys2Proof/Laws/Framebuffer.lean ====
section
/-!
SUPPORT. Pixels after a flip and after a clear, and what drawing a bit does.
-/

namespace Sys2Proof.Machine

/-- A flip turns the pixel at its place and leaves every other pixel (40_display.md R81). -/
theorem fbPixel_fbFlip (fb : Framebuffer) (x y px py : Nat) :
    fbPixel (fbFlip fb x y) px py =
      if px % 64 = x % 64 ∧ py % 32 = y % 32 then !fbPixel fb px py else fbPixel fb px py := by
  unfold fbFlip
  by_cases hy : py % 32 = y % 32
  · by_cases hx : px % 64 = x % 64
    · simp [fbPixel, hy, hx]
    · simp [fbPixel, hy, hx, Ne.symm hx]
  · simp [fbPixel, hy, Ne.symm hy]

@[simp] theorem fbPixel_fbBlank (x y : Nat) : fbPixel fbBlank x y = false := by
  simp [fbPixel, fbBlank]

/-- Two grids with the same pixels are the same grid. -/
theorem fb_ext {a b : Framebuffer} (h : ∀ x y, x < 64 → y < 32 → fbPixel a x y = fbPixel b x y) : a = b := by
  apply Vector.ext
  intro y hy
  apply Vector.ext
  intro x hx
  simpa [fbPixel, Nat.mod_eq_of_lt hx, Nat.mod_eq_of_lt hy] using h x y hx hy

@[simp] theorem drawBit_false (x y : Nat) (c : Canvas) : drawBit x y false c = c := rfl

@[simp] theorem drawBit_true (x y : Nat) (c : Canvas) :
    drawBit x y true c = ⟨fbFlip c.fb x y, true, c.collision || fbPixel c.fb x y⟩ := rfl

@[simp] theorem drawRows_nil (x y : Nat) (c : Canvas) : drawRows x y [] c = c := rfl

@[simp] theorem drawRows_cons (x y : Nat) (r : Byte) (rs : List Byte) (c : Canvas) :
    drawRows x y (r :: rs) c = drawRows x (y + 1) rs (drawRow x y r c) := rfl

end Sys2Proof.Machine
end

