-- ==== Sys2Proof/Laws/Memory.lean ====
section
/-!
SUPPORT. Reads after writes, and that every memory operation keeps the canonical form.
-/

namespace Sys2Proof.Machine

theorem memLookup_memInsert (a : Nat) (b : Byte) (m : Memory) (c : Nat) :
    memLookup (memInsert a b m) c = if a = c then some b else memLookup m c := by
  induction m with
  | nil => simp [memInsert, memLookup]
  | cons e m ih =>
    obtain ⟨k, d⟩ := e
    simp only [memInsert]
    split
    · simp [memLookup]
    · split
      · subst_vars
        by_cases h : k = c <;> simp [memLookup, h]
      · rename_i h1 h2
        by_cases h : k = c
        · have : ¬ a = c := by omega
          simp [memLookup, h, this]
        · simp [memLookup, h, ih]

theorem memLookup_memRemove (a : Nat) (m : Memory) (c : Nat) :
    memLookup (memRemove a m) c = if a = c then none else memLookup m c := by
  induction m with
  | nil => simp [memRemove, memLookup]
  | cons e m ih =>
    obtain ⟨k, d⟩ := e
    simp only [memRemove]
    split
    · subst_vars
      by_cases h : k = c
      · subst h; simp [ih]
      · simp [memLookup, h, ih]
    · rename_i h1
      by_cases h : k = c
      · have : ¬ a = c := by omega
        simp [memLookup, h, this]
      · simp [memLookup, h, ih]

/-- A read after a write: the byte written at its address, what was there at any other. -/
theorem memGet_memSet (m : Memory) (a : Nat) (b : Byte) (c : Nat) :
    memGet (memSet m a b) c = if a = c then b else memGet m c := by
  unfold memSet memGet
  split
  · rw [memLookup_memRemove]
    split
    · subst_vars; rfl
    · rfl
  · rw [memLookup_memInsert]
    split <;> rfl

@[simp] theorem memGet_memSet_same (m : Memory) (a : Nat) (b : Byte) : memGet (memSet m a b) a = b := by
  simp [memGet_memSet]

theorem memGet_memSet_other (m : Memory) {a c : Nat} (b : Byte) (h : a ≠ c) : memGet (memSet m a b) c = memGet m c := by
  simp [memGet_memSet, h]

/-- A read after a run of stores: the byte stored there, or what was there before. -/
theorem memGet_memSetN (bs : List Byte) (m : Memory) (a c : Nat) :
    memGet (memSetN m a bs) c = if h : a ≤ c ∧ c < a + bs.length then bs[c - a]'(by omega) else memGet m c := by
  induction bs generalizing m a with
  | nil => simp [memSetN]
  | cons b bs ih =>
    rw [memSetN, ih, memGet_memSet]
    by_cases h1 : a = c
    · subst h1; simp
    · by_cases h2 : a + 1 ≤ c ∧ c < a + 1 + bs.length
      · have h3 : a ≤ c ∧ c < a + (b :: bs).length := by simp; omega
        have h4 : c - a = (c - (a + 1)) + 1 := by omega
        simp only [h2, h3, and_self, dite_true, h4, List.getElem_cons_succ]
      · have h3 : ¬ (a ≤ c ∧ c < a + (b :: bs).length) := by simp; omega
        simp only [h2, h3, dite_false, h1, if_false]

@[simp] theorem memGetN_length (m : Memory) (a n : Nat) : (memGetN m a n).length = n := by
  induction n generalizing a with
  | zero => rfl
  | succ n ih => simp [memGetN, ih]

@[simp] theorem memGetN_getElem (m : Memory) (a n k : Nat) (h : k < (memGetN m a n).length) :
    (memGetN m a n)[k] = memGet m (a + k) := by
  induction n generalizing a k with
  | zero => simp at h
  | succ n ih =>
    cases k with
    | zero => rfl
    | succ k =>
      simp only [memGetN, List.getElem_cons_succ]
      rw [ih]
      congr 1
      omega

theorem memWfFrom_mono {lo lo' : Nat} (h : lo' ≤ lo) {m : Memory} (w : memWfFrom lo m = true) : memWfFrom lo' m = true := by
  cases m with
  | nil => rfl
  | cons e m =>
    simp only [memWfFrom, Bool.and_eq_true, decide_eq_true_eq] at w ⊢
    exact ⟨⟨⟨by omega, w.1.1.2⟩, w.1.2⟩, w.2⟩

theorem memRemove_wfFrom (a lo : Nat) (m : Memory) (w : memWfFrom lo m = true) : memWfFrom lo (memRemove a m) = true := by
  induction m generalizing lo with
  | nil => rfl
  | cons e m ih =>
    obtain ⟨k, d⟩ := e
    simp only [memWfFrom, Bool.and_eq_true, decide_eq_true_eq] at w
    simp only [memRemove]
    split
    · exact memWfFrom_mono (by omega) (ih _ w.2)
    · simp only [memWfFrom, Bool.and_eq_true, decide_eq_true_eq]
      exact ⟨w.1, ih _ w.2⟩

theorem memInsert_wfFrom (a lo : Nat) (b : Byte) (m : Memory) (hlo : lo ≤ a) (ha : a < Config.memSize)
    (hb : b ≠ initialByte a) (w : memWfFrom lo m = true) : memWfFrom lo (memInsert a b m) = true := by
  induction m generalizing lo with
  | nil => simp [memInsert, memWfFrom, hlo, ha, hb]
  | cons e m ih =>
    obtain ⟨k, d⟩ := e
    simp only [memWfFrom, Bool.and_eq_true, decide_eq_true_eq] at w
    simp only [memInsert]
    split
    · simp only [memWfFrom, Bool.and_eq_true, decide_eq_true_eq]
      exact ⟨⟨⟨hlo, ha⟩, hb⟩, ⟨⟨by omega, w.1.1.2⟩, w.1.2⟩, w.2⟩
    · split
      · subst_vars
        simp only [memWfFrom, Bool.and_eq_true, decide_eq_true_eq]
        exact ⟨⟨⟨hlo, ha⟩, hb⟩, w.2⟩
      · simp only [memWfFrom, Bool.and_eq_true, decide_eq_true_eq]
        exact ⟨w.1, ih _ (by omega) w.2⟩

/-- A write inside memory keeps the canonical form. -/
theorem memSet_wf {m : Memory} (w : m.wf = true) {a : Nat} (ha : a < Config.memSize) (b : Byte) :
    (memSet m a b).wf = true := by
  unfold memSet Memory.wf
  split
  · exact memRemove_wfFrom _ _ _ w
  · exact memInsert_wfFrom _ _ _ _ (Nat.zero_le _) ha ‹_› w

theorem memSetN_wf (bs : List Byte) {m : Memory} (w : m.wf = true) {a : Nat} (ha : a + bs.length ≤ Config.memSize) :
    (memSetN m a bs).wf = true := by
  induction bs generalizing m a with
  | nil => exact w
  | cons b bs ih =>
    simp only [List.length_cons] at ha
    exact ih (memSet_wf w (by omega) b) (by omega)

theorem rangeOk_iff (a n : Nat) : rangeOk a n = true ↔ n = 0 ∨ a + n ≤ 0x1000 := by
  unfold rangeOk
  rw [Bool.or_eq_true, decide_eq_true_eq, beq_iff_eq]
  rfl

/-- A checked write answers the written memory exactly when the whole range lies in memory. -/
theorem memWriteN_cases (m : Memory) (a : Nat) (bs : List Byte) :
    ((bs.length = 0 ∨ a + bs.length ≤ 0x1000) ∧ memWriteN m a bs = .ok (memSetN m a bs)) ∨
    (bs.length ≠ 0 ∧ 0x1000 < a + bs.length ∧ memWriteN m a bs = .error .outOfRangeAccess) := by
  unfold memWriteN
  by_cases h : rangeOk a bs.length = true
  · exact .inl ⟨(rangeOk_iff _ _).1 h, by simp [h]⟩
  · have h' := mt (rangeOk_iff a bs.length).2 h
    exact .inr ⟨by omega, by omega, by simp [h]⟩

/-- A checked read answers the bytes exactly when the whole range lies in memory. -/
theorem memReadN_cases (m : Memory) (a n : Nat) :
    ((n = 0 ∨ a + n ≤ 0x1000) ∧ memReadN m a n = .ok (memGetN m a n)) ∨
    (n ≠ 0 ∧ 0x1000 < a + n ∧ memReadN m a n = .error .outOfRangeAccess) := by
  unfold memReadN
  by_cases h : rangeOk a n = true
  · exact .inl ⟨(rangeOk_iff _ _).1 h, by simp [h]⟩
  · have h' := mt (rangeOk_iff a n).2 h
    exact .inr ⟨by omega, by omega, by simp [h]⟩

/-- A checked write that answers keeps the canonical form. -/
theorem memWriteN_wf {m m' : Memory} (w : m.wf = true) {a : Nat} {bs : List Byte} (h : memWriteN m a bs = .ok m') :
    m'.wf = true := by
  rcases memWriteN_cases m a bs with ⟨hr, e⟩ | ⟨_, _, e⟩ <;> rw [e] at h
  · cases h
    cases bs with
    | nil => exact w
    | cons b bs => exact memSetN_wf _ w (by simp at hr ⊢; simpa [Config.memSize] using hr)
  · cases h

theorem reset_mem_wf : State.reset.mem.wf = true := rfl

end Sys2Proof.Machine
end

