-- ==== Sys2Proof/Laws/Ops.lean ====
section
/-!
SUPPORT. What each shared operation can do, said once: registers, completing an instruction, skips, the bytes at I, the
keypad operand, the key choice, the timer tick, fetch and the end of a cycle.
-/

namespace Sys2Proof.Machine

open Host (Outcome)

/-! ## Registers -/

theorem State.ext_getV {s t : State} (h : ∀ x, s.getV x = t.getV x) : s.v = t.v := by
  apply Vector.ext
  intro k hk
  have := h (BitVec.ofNat 4 k)
  simpa [State.getV, Nat.mod_eq_of_lt hk] using this

/-- A register reads as the last value written to it; a write changes no other register (10_state.md R10). -/
theorem State.getV_setV (s : State) (x : Reg) (b : Byte) (k : Reg) :
    (s.setV x b).getV k = if k = x then b else s.getV k := by
  simp only [State.getV, State.setV_v, Vector.getElem_set, BitVec.toNat_inj]
  by_cases h : x = k
  · simp [h]
  · simp [h, Ne.symm h]

/-- After a result and a flag: VF holds the flag, the destination the result unless it is VF (42_alu.md R118). -/
theorem State.getV_setResultFlag (s : State) (x : Reg) (r f : Byte) (k : Reg) :
    (s.setResultFlag x r f).getV k = if k = regF then f else if k = x then r else s.getV k := by
  simp only [State.setResultFlag, State.getV_setV]

theorem getElem_regsSetN (bs : List Byte) (v : Vector Byte 16) (k j : Nat) (hj : j < 16) (hb : k + bs.length ≤ 16) :
    (regsSetN v k bs)[j] = if h : k ≤ j ∧ j < k + bs.length then bs[j - k]'(by omega) else v[j] := by
  induction bs generalizing v k with
  | nil => simp [regsSetN]
  | cons b bs ih =>
    simp only [List.length_cons] at hb
    rw [regsSetN, ih _ _ (by omega)]
    by_cases h1 : k = j
    · subst h1; simp
    · by_cases h2 : k + 1 ≤ j ∧ j < k + 1 + bs.length
      · have h3 : k ≤ j ∧ j < k + (b :: bs).length := by simp; omega
        have h4 : j - k = (j - (k + 1)) + 1 := by omega
        simp only [h2, h3, and_self, dite_true, h4, List.getElem_cons_succ]
      · have h3 : ¬ (k ≤ j ∧ j < k + (b :: bs).length) := by simp; omega
        rw [dif_neg h2, dif_neg h3, Vector.getElem_setIfInBounds_ne hj h1]

/-- Loading a byte string from V0 upward (43_index_memory.md R130). -/
theorem State.getV_setRegs (s : State) (bs : List Byte) (hb : bs.length ≤ 16) (k : Reg) :
    (s.setRegs bs).getV k = if h : k.toNat < bs.length then bs[k.toNat] else s.getV k := by
  have hk : k.toNat < 16 := k.isLt
  simp only [State.getV, State.setRegs_v]
  rw [getElem_regsSetN bs s.v 0 k.toNat hk (by omega)]
  simp

@[simp] theorem State.regsUpTo_length (s : State) (x : Reg) : (s.regsUpTo x).length = x.toNat + 1 := by
  have := x.isLt
  simp [State.regsUpTo]
  omega

theorem State.regsUpTo_getElem (s : State) (x : Reg) (k : Nat) (h : k < (s.regsUpTo x).length) :
    (s.regsUpTo x)[k] = s.getV (BitVec.ofNat 4 k) := by
  have := x.isLt
  rw [State.regsUpTo_length] at h
  have hk : k % 16 = k := Nat.mod_eq_of_lt (by omega)
  simp [State.regsUpTo, State.getV, hk]

/-! ## Completing an instruction -/

/-- Completing at a new PC in range answers the effect with that PC; otherwise the fatal entry of the state the instruction
began in (10_state.md R13, R27). -/
theorem completeAt_cases (s s' : State) (t : Nat) :
    (t ≤ 0xFFE ∧ completeAt s s' t = .next (s'.setPc (BitVec.ofNat 16 t))) ∨
    (0xFFE < t ∧ completeAt s s' t = .next (fatalEntry .outOfRangeAccess s)) := by
  unfold completeAt
  by_cases h : t ≤ Config.pcMax
  · exact .inl ⟨h, by simp [h]⟩
  · exact .inr ⟨by simpa [Config.pcMax] using h, by simp [h, raiseFatal]⟩

theorem completeAt_ok {s s' : State} {t : Nat} (h : t ≤ 0xFFE) :
    completeAt s s' t = .next (s'.setPc (BitVec.ofNat 16 t)) := by
  rcases completeAt_cases s s' t with ⟨_, e⟩ | ⟨h', _⟩
  · exact e
  · omega

theorem completeAt_fatal {s s' : State} {t : Nat} (h : 0xFFE < t) :
    completeAt s s' t = .next (fatalEntry .outOfRangeAccess s) := by
  rcases completeAt_cases s s' t with ⟨h', _⟩ | ⟨_, e⟩
  · omega
  · exact e

theorem setPc_toNat {t : Nat} (h : t ≤ 0xFFE) : (BitVec.ofNat 16 t).toNat = t := by
  simp; omega

theorem advance_ok {s s' : State} (h : s.pc.toNat + 2 ≤ 0xFFE) :
    advance s s' = .next (s'.setPc (BitVec.ofNat 16 (s.pc.toNat + 2))) := completeAt_ok h

theorem advance_fatal {s s' : State} (h : 0xFFE < s.pc.toNat + 2) :
    advance s s' = .next (fatalEntry .outOfRangeAccess s) := completeAt_fatal h

/-- A skip writes nothing but PC (41_control_flow.md R98). -/
theorem skipIf_cases (c : Bool) (s : State) :
    ((if c then s.pc.toNat + 4 else s.pc.toNat + 2) ≤ 0xFFE ∧
      skipIf c s = .next (s.setPc (BitVec.ofNat 16 (if c then s.pc.toNat + 4 else s.pc.toNat + 2)))) ∨
    (0xFFE < (if c then s.pc.toNat + 4 else s.pc.toNat + 2) ∧
      skipIf c s = .next (fatalEntry .outOfRangeAccess s)) := completeAt_cases _ _ _

/-! ## Operand forms -/

/-- Storing at I changes nothing but memory (43_index_memory.md R131, R132). -/
theorem writeAtI_cases (s : State) (bs : List Byte) :
    ((bs.length = 0 ∨ s.i.toNat + bs.length ≤ 0x1000) ∧
      writeAtI s bs = .ok (s.setMem (memSetN s.mem s.i.toNat bs))) ∨
    (bs.length ≠ 0 ∧ 0x1000 < s.i.toNat + bs.length ∧ writeAtI s bs = .error .outOfRangeAccess) := by
  unfold writeAtI
  rcases memWriteN_cases s.mem s.i.toNat bs with ⟨h, e⟩ | ⟨h1, h2, e⟩
  · exact .inl ⟨h, by rw [e]⟩
  · exact .inr ⟨h1, h2, by rw [e]⟩

/-- The keypad entry a register names, or the fatal condition above 15 (44_keypad_timers.md R141). -/
theorem keyOperand_cases (s : State) (x : Reg) :
    ((s.getV x).toNat ≤ 15 ∧ keyOperand s x = .ok (s.keys.getLsbD (s.getV x).toNat)) ∨
    (15 < (s.getV x).toNat ∧ keyOperand s x = .error .outOfRangeAccess) := by
  unfold keyOperand
  by_cases h : (s.getV x).toNat ≤ 15
  · exact .inl ⟨h, by simp [h, State.keyDown]⟩
  · exact .inr ⟨by omega, by simp [h]⟩

theorem mem_pressedKeys (keys : BitVec 16) (k : Nat) : k ∈ pressedKeys keys ↔ k < 16 ∧ keys.getLsbD k = true := by
  simp [pressedKeys]

/-- With a key pressed, `KEY_SELECT` answers a pressed key, whatever the choice (44_keypad_timers.md R138). -/
theorem selectKey_mem (c : Nat) {keys : BitVec 16} (h : keys ≠ 0) : selectKey c keys ∈ pressedKeys keys := by
  have hne : pressedKeys keys ≠ [] := by
    intro he
    apply h
    apply BitVec.eq_of_getLsbD_eq
    intro k hk
    by_contra hc
    have hm : k ∈ pressedKeys keys := (mem_pressedKeys _ _).2 ⟨hk, by simpa using hc⟩
    simp [he] at hm
  have hl : c % (pressedKeys keys).length < (pressedKeys keys).length :=
    Nat.mod_lt _ (List.length_pos_iff.2 hne)
  unfold selectKey
  rw [List.getD_eq_getElem _ _ hl]
  exact List.getElem_mem hl

/-! ## Timers, fetch and the end of a cycle -/

/-- A timer goes down by one and stays at 0 (60_exceptions.md R162). -/
@[simp] theorem tickByte_toNat (b : Byte) : (tickByte b).toNat = b.toNat - 1 := by
  unfold tickByte
  split
  · subst_vars; rfl
  · have : b.toNat ≠ 0 := fun h => ‹¬ b = 0› (BitVec.eq_of_toNat_eq (by simpa using h))
    have := b.isLt
    rw [BitVec.toNat_sub]
    simp
    omega

/-- With PC in range the fetch succeeds and is big-endian (10_state.md R13, 20_memory.md R46). -/
theorem fetch_ok {s : State} (h : s.pc.toNat ≤ 0xFFE) :
    fetch s = .ok (memGet s.mem s.pc.toNat ++ memGet s.mem (s.pc.toNat + 1)) := by
  have h1 : s.pc.toNat < Config.memSize := by simp [Config.memSize]; omega
  have h2 : s.pc.toNat + 1 < Config.memSize := by simp [Config.memSize]; omega
  simp [fetch, memRead, h1, h2]

@[simp] theorem fatalEntry_halted (c : Cause) (s : State) : (fatalEntry c s).halted = true := rfl

/-- Everything one cycle can do (10_state.md R26). -/
theorem step_cases (s : State) :
    (s.halted = true ∧ step s = .next s) ∨
    (s.halted = false ∧ ∃ c, fetch s = .error c ∧ step s = .next (fatalEntry c s)) ∨
    (s.halted = false ∧ ∃ op e, fetch s = .ok op ∧ decode op = .error e ∧
      step s = .next (fatalEntry .unrecognizedOpcode (s.setIr op))) ∨
    (s.halted = false ∧ ∃ op i, fetch s = .ok op ∧ decode op = .ok i ∧
      step s = afterExec i (s.setIr op) (exec i (s.setIr op))) := by
  unfold step cycle
  cases hh : s.halted
  · rcases hf : fetch s with c | op
    · exact .inr (.inl ⟨rfl, c, rfl, rfl⟩)
    · rcases hd : decode op with e | i
      · exact .inr (.inr (.inl ⟨rfl, op, e, rfl, hd, by simp [hd, raiseFatal]⟩))
      · exact .inr (.inr (.inr ⟨rfl, op, i, rfl, hd, by simp [hd]⟩))
  · exact .inl ⟨rfl, rfl⟩

end Sys2Proof.Machine
end

