-- ==== Sys2Proof/Laws/PerInstr.lean ====
section
/-!
SUPPORT. For every instruction: its row is a row of the opcode map, and its encoding has the row's fixed bits
(30_encoding.md R62).
-/

namespace Sys2Proof.Laws.EncodesInRow

/-- The instruction's encoding falls in the row of the opcode map that lists it. -/
def Statement (i : Instr) : Prop := i.row ∈ opcodeTable ∧ i.row.selects (encode i) = true

/-- A layout with its first nibble fixed has the bits of the row that fixes it. -/
theorem nnn_selected (p : String) (a : BitVec 4) (nnn : Addr) :
    OpRow.selects ⟨p, 0xF#4 ++ 0x000#12, a ++ 0x000#12⟩ (a ++ nnn) = true := by
  have h : (a ++ nnn) &&& (0xF#4 ++ 0x000#12) = a ++ 0x000#12 := by
    rw [and_layout_nnn, BitVec.and_zero, show a &&& 0xF#4 = a from BitVec.and_allOnes]
  exact beq_iff_eq.2 h

theorem xnn_selected (p : String) (a x : BitVec 4) (nn : Byte) :
    OpRow.selects ⟨p, (0xF#4 ++ 0x0#4) ++ 0x00#8, (a ++ 0x0#4) ++ 0x00#8⟩ ((a ++ x) ++ nn) = true := by
  have h : ((a ++ x) ++ nn) &&& ((0xF#4 ++ 0x0#4) ++ 0x00#8) = (a ++ 0x0#4) ++ 0x00#8 := by
    rw [and_layout_xnn, BitVec.and_zero, BitVec.and_zero, show a &&& 0xF#4 = a from BitVec.and_allOnes]
  exact beq_iff_eq.2 h

theorem x_selected (p : String) (a x : BitVec 4) (nn : Byte) :
    OpRow.selects ⟨p, (0xF#4 ++ 0x0#4) ++ 0xFF#8, (a ++ 0x0#4) ++ nn⟩ ((a ++ x) ++ nn) = true := by
  have h : ((a ++ x) ++ nn) &&& ((0xF#4 ++ 0x0#4) ++ 0xFF#8) = (a ++ 0x0#4) ++ nn := by
    rw [and_layout_xnn, BitVec.and_zero, show a &&& 0xF#4 = a from BitVec.and_allOnes,
      show nn &&& 0xFF#8 = nn from BitVec.and_allOnes]
  exact beq_iff_eq.2 h

theorem xy_selected (p : String) (a x y n : BitVec 4) :
    OpRow.selects ⟨p, (0xF#4 ++ 0x0#4) ++ (0x0#4 ++ 0xF#4), (a ++ 0x0#4) ++ (0x0#4 ++ n)⟩
      ((a ++ x) ++ (y ++ n)) = true := by
  have h : ((a ++ x) ++ (y ++ n)) &&& ((0xF#4 ++ 0x0#4) ++ (0x0#4 ++ 0xF#4)) =
      (a ++ 0x0#4) ++ (0x0#4 ++ n) := by
    rw [and_layout_xnn, BitVec.and_zero, BitVec.and_append, BitVec.and_zero,
      show a &&& 0xF#4 = a from BitVec.and_allOnes, show n &&& 0xF#4 = n from BitVec.and_allOnes]
  exact beq_iff_eq.2 h

theorem cls : Statement (.cls) := ⟨List.mem_of_getElem? (i := 0) rfl, by decide⟩

theorem ret : Statement (.ret) := ⟨List.mem_of_getElem? (i := 1) rfl, by decide⟩

theorem jp (nnn : Addr) : Statement (.jp nnn) := ⟨List.mem_of_getElem? (i := 2) rfl, nnn_selected _ 0x1#4 nnn⟩

theorem call (nnn : Addr) : Statement (.call nnn) := ⟨List.mem_of_getElem? (i := 3) rfl, nnn_selected _ 0x2#4 nnn⟩

theorem seByte (x : Reg) (nn : Byte) : Statement (.seByte x nn) := ⟨List.mem_of_getElem? (i := 4) rfl, xnn_selected _ 0x3#4 x nn⟩

theorem sneByte (x : Reg) (nn : Byte) : Statement (.sneByte x nn) := ⟨List.mem_of_getElem? (i := 5) rfl, xnn_selected _ 0x4#4 x nn⟩

theorem seReg (x y : Reg) : Statement (.seReg x y) := ⟨List.mem_of_getElem? (i := 6) rfl, xy_selected _ 0x5#4 x y 0x0#4⟩

theorem ldByte (x : Reg) (nn : Byte) : Statement (.ldByte x nn) := ⟨List.mem_of_getElem? (i := 7) rfl, xnn_selected _ 0x6#4 x nn⟩

theorem addByte (x : Reg) (nn : Byte) : Statement (.addByte x nn) := ⟨List.mem_of_getElem? (i := 8) rfl, xnn_selected _ 0x7#4 x nn⟩

theorem ldReg (x y : Reg) : Statement (.ldReg x y) := ⟨List.mem_of_getElem? (i := 9) rfl, xy_selected _ 0x8#4 x y 0x0#4⟩

theorem orReg (x y : Reg) : Statement (.orReg x y) := ⟨List.mem_of_getElem? (i := 10) rfl, xy_selected _ 0x8#4 x y 0x1#4⟩

theorem andReg (x y : Reg) : Statement (.andReg x y) := ⟨List.mem_of_getElem? (i := 11) rfl, xy_selected _ 0x8#4 x y 0x2#4⟩

theorem xorReg (x y : Reg) : Statement (.xorReg x y) := ⟨List.mem_of_getElem? (i := 12) rfl, xy_selected _ 0x8#4 x y 0x3#4⟩

theorem addReg (x y : Reg) : Statement (.addReg x y) := ⟨List.mem_of_getElem? (i := 13) rfl, xy_selected _ 0x8#4 x y 0x4#4⟩

theorem subReg (x y : Reg) : Statement (.subReg x y) := ⟨List.mem_of_getElem? (i := 14) rfl, xy_selected _ 0x8#4 x y 0x5#4⟩

theorem shr (x y : Reg) : Statement (.shr x y) := ⟨List.mem_of_getElem? (i := 15) rfl, xy_selected _ 0x8#4 x y 0x6#4⟩

theorem subnReg (x y : Reg) : Statement (.subnReg x y) := ⟨List.mem_of_getElem? (i := 16) rfl, xy_selected _ 0x8#4 x y 0x7#4⟩

theorem shl (x y : Reg) : Statement (.shl x y) := ⟨List.mem_of_getElem? (i := 17) rfl, xy_selected _ 0x8#4 x y 0xE#4⟩

theorem sneReg (x y : Reg) : Statement (.sneReg x y) := ⟨List.mem_of_getElem? (i := 18) rfl, xy_selected _ 0x9#4 x y 0x0#4⟩

theorem ldI (nnn : Addr) : Statement (.ldI nnn) := ⟨List.mem_of_getElem? (i := 19) rfl, nnn_selected _ 0xA#4 nnn⟩

theorem jpV0 (nnn : Addr) : Statement (.jpV0 nnn) := ⟨List.mem_of_getElem? (i := 20) rfl, nnn_selected _ 0xB#4 nnn⟩

theorem rnd (x : Reg) (nn : Byte) : Statement (.rnd x nn) := ⟨List.mem_of_getElem? (i := 21) rfl, xnn_selected _ 0xC#4 x nn⟩

theorem drw (x y : Reg) (n : Nibble) : Statement (.drw x y n) := ⟨List.mem_of_getElem? (i := 22) rfl, xnn_selected _ 0xD#4 x (y ++ n)⟩

theorem skp (x : Reg) : Statement (.skp x) := ⟨List.mem_of_getElem? (i := 23) rfl, x_selected _ 0xE#4 x 0x9E#8⟩

theorem sknp (x : Reg) : Statement (.sknp x) := ⟨List.mem_of_getElem? (i := 24) rfl, x_selected _ 0xE#4 x 0xA1#8⟩

theorem ldVxDt (x : Reg) : Statement (.ldVxDt x) := ⟨List.mem_of_getElem? (i := 25) rfl, x_selected _ 0xF#4 x 0x07#8⟩

theorem ldVxK (x : Reg) : Statement (.ldVxK x) := ⟨List.mem_of_getElem? (i := 26) rfl, x_selected _ 0xF#4 x 0x0A#8⟩

theorem ldDtVx (x : Reg) : Statement (.ldDtVx x) := ⟨List.mem_of_getElem? (i := 27) rfl, x_selected _ 0xF#4 x 0x15#8⟩

theorem ldStVx (x : Reg) : Statement (.ldStVx x) := ⟨List.mem_of_getElem? (i := 28) rfl, x_selected _ 0xF#4 x 0x18#8⟩

theorem addI (x : Reg) : Statement (.addI x) := ⟨List.mem_of_getElem? (i := 29) rfl, x_selected _ 0xF#4 x 0x1E#8⟩

theorem ldF (x : Reg) : Statement (.ldF x) := ⟨List.mem_of_getElem? (i := 30) rfl, x_selected _ 0xF#4 x 0x29#8⟩

theorem ldB (x : Reg) : Statement (.ldB x) := ⟨List.mem_of_getElem? (i := 31) rfl, x_selected _ 0xF#4 x 0x33#8⟩

theorem storeRegs (x : Reg) : Statement (.storeRegs x) := ⟨List.mem_of_getElem? (i := 32) rfl, x_selected _ 0xF#4 x 0x55#8⟩

theorem loadRegs (x : Reg) : Statement (.loadRegs x) := ⟨List.mem_of_getElem? (i := 33) rfl, x_selected _ 0xF#4 x 0x65#8⟩

end Sys2Proof.Laws.EncodesInRow
end

