-- ==== Sys2Proof/Machine/Asm.lean ====
section
/-!
DEFINITION. The assembler text of an instruction (30_encoding.md R69). Registers are written V and one hexadecimal digit,
numbers in hexadecimal with 0x (log 21); `SHR Vx` and `SHL Vx` print the same for every Y.
-/

namespace Sys2Proof.Machine

/-- One hexadecimal digit. -/
def hexDigit (n : Nibble) : String :=
  match ["0", "1", "2", "3", "4", "5", "6", "7", "8", "9", "A", "B", "C", "D", "E", "F"][n.toNat]? with
  | some d => d
  | none => ""

/-- `V0` to `VF` (R69). -/
def regText (x : Reg) : String := "V" ++ hexDigit x

/-- A `byte` operand (R69). -/
def byteText (b : Byte) : String := "0x" ++ hexDigit (b.extractLsb' 4 4) ++ hexDigit (b.extractLsb' 0 4)

/-- An `addr` operand (R69). -/
def addrText (a : Addr) : String :=
  "0x" ++ hexDigit (a.extractLsb' 8 4) ++ hexDigit (a.extractLsb' 4 4) ++ hexDigit (a.extractLsb' 0 4)

/-- The text of an instruction, destination first (R69). -/
def asmText : Instr → String
  | .cls => "CLS"
  | .ret => "RET"
  | .jp nnn => "JP " ++ addrText nnn
  | .call nnn => "CALL " ++ addrText nnn
  | .seByte x nn => "SE " ++ regText x ++ "," ++ byteText nn
  | .sneByte x nn => "SNE " ++ regText x ++ "," ++ byteText nn
  | .seReg x y => "SE " ++ regText x ++ "," ++ regText y
  | .ldByte x nn => "LD " ++ regText x ++ "," ++ byteText nn
  | .addByte x nn => "ADD " ++ regText x ++ "," ++ byteText nn
  | .ldReg x y => "LD " ++ regText x ++ "," ++ regText y
  | .orReg x y => "OR " ++ regText x ++ "," ++ regText y
  | .andReg x y => "AND " ++ regText x ++ "," ++ regText y
  | .xorReg x y => "XOR " ++ regText x ++ "," ++ regText y
  | .addReg x y => "ADD " ++ regText x ++ "," ++ regText y
  | .subReg x y => "SUB " ++ regText x ++ "," ++ regText y
  | .shr x _ => "SHR " ++ regText x
  | .subnReg x y => "SUBN " ++ regText x ++ "," ++ regText y
  | .shl x _ => "SHL " ++ regText x
  | .sneReg x y => "SNE " ++ regText x ++ "," ++ regText y
  | .ldI nnn => "LD I," ++ addrText nnn
  | .jpV0 nnn => "JP V0," ++ addrText nnn
  | .rnd x nn => "RND " ++ regText x ++ "," ++ byteText nn
  | .drw x y n => "DRW " ++ regText x ++ "," ++ regText y ++ ",0x" ++ hexDigit n
  | .skp x => "SKP " ++ regText x
  | .sknp x => "SKNP " ++ regText x
  | .ldVxDt x => "LD " ++ regText x ++ ",DT"
  | .ldVxK x => "LD " ++ regText x ++ ",K"
  | .ldDtVx x => "LD DT," ++ regText x
  | .ldStVx x => "LD ST," ++ regText x
  | .addI x => "ADD I," ++ regText x
  | .ldF x => "LD F," ++ regText x
  | .ldB x => "LD B," ++ regText x
  | .storeRegs x => "LD [I]," ++ regText x
  | .loadRegs x => "LD " ++ regText x ++ ",[I]"

end Sys2Proof.Machine
end

