-- ==== Sys2Proof/Tests/Slice0.lean ====
section
/-!
SUPPORT. Tests of one step each, their expected results taken from spec/95_test_vectors.md (the vector is named), words
written out from 30_encoding.md, ill-formed words, and a witness for every obligation that has hypotheses.
-/

namespace Sys2Proof.Tests

open Sys2Proof Sys2Proof.Machine Sys2Proof.Claims Host

/-! ## Helpers -/

/-- Reset with one word at 0x200. -/
def prog (w : Nat) : State := State.reset.withFetchWord 16 w

/-- Registers, 0 where not listed. -/
def regs : List (Reg × Byte) → Vector Byte 16
  | [] => Vector.replicate 16 0
  | (x, b) :: l => (regs l).set x.toNat b x.isLt

/-- Reset with PC at `p`. -/
def pcAt (p : Word) : State := { State.reset with pc := p }

/-- Bytes stored at an address. -/
def withBytes (s : State) (a : Nat) (bs : List Byte) : State := s.setMem (memSetN s.mem a bs)

/-- The state in a next outcome. -/
def answer (o : Outcome State Fault Refusal) (s : State) : State :=
  match o with
  | .next t => t
  | .fault _ => s
  | .refused _ => s

/-- One cycle. -/
def cycled (s : State) : State := answer (step s) s

/-- One cycle halts the machine with this cause, word and PC, PC and VF as they were. -/
def haltsWith (s : State) (c : Cause) (w p : Word) : Bool :=
  decide ((cycled s).fatal = some ⟨c, w, p⟩) && decide ((cycled s).pc = p) && decide ((cycled s).getV 0xF = s.getV 0xF)

/-- `exec` answers a state at this PC, not halted. -/
def runsTo (i : Instr) (s : State) (p : Word) : Bool :=
  decide ((answer (exec i s) s).pc = p) && decide ((answer (exec i s) s).fatal = none)

/-- `exec` raises this cause. -/
def traps (i : Instr) (s : State) (c : Cause) : Bool := decide ((answer (exec i s) s).fatal = some ⟨c, s.ir, s.pc⟩)

/-- With PC + 2 = 0xFFE the form completes, the last PC that meets the hypothesis of `Sequential`; with PC + 2 = 0xFFF it
raises. -/
def bothSides (i : Instr) (s : State) : Bool :=
  runsTo i { s with pc := 0xFFC } 0xFFE && traps i { s with pc := 0xFFD } .outOfRangeAccess

/-! ## WellFormed: an ill-formed word for each check, refused -/

theorem test_ill_formed_words :
    [0x0000, 0x00E1, 0x01E0, 0x5121, 0x8128, 0x812F, 0x9121, 0xE09F, 0xE19D, 0xF000, 0xF030, 0xFFFF].all
      (fun w : Word => !wellFormedWord w) = true := by decide

theorem test_ill_formed_bytes :
    wellFormedBytes [] = false ∧ wellFormedBytes [0x12] = false ∧ wellFormedBytes [0x51, 0x21] = false ∧
    wellFormedBytes [0x51, 0x20] = true := by decide

theorem test_well_formed_instructions :
    (Instr.cls).wellFormed = true ∧ (Instr.drw 1 2 5).wellFormed = true ∧ (Instr.loadRegs 0xF).wellFormed = true := by decide

/-! ## Decoding: words written out from 30_encoding.md R61, R62 -/

theorem test_decode_flow :
    decode 0x00E0 = .ok .cls ∧ decode 0x00EE = .ok .ret ∧ decode 0x1ABC = .ok (.jp 0xABC) ∧
    decode 0x2123 = .ok (.call 0x123) ∧ decode 0x34AB = .ok (.seByte 4 0xAB) ∧
    decode 0x45CD = .ok (.sneByte 5 0xCD) ∧ decode 0x5670 = .ok (.seReg 6 7) ∧
    decode 0x9AB0 = .ok (.sneReg 0xA 0xB) ∧ decode 0xB234 = .ok (.jpV0 0x234) := ⟨rfl, rfl, rfl, rfl, rfl, rfl, rfl, rfl, rfl⟩

theorem test_decode_alu :
    decode 0x6789 = .ok (.ldByte 7 0x89) ∧ decode 0x789A = .ok (.addByte 8 0x9A) ∧
    decode 0x8AB0 = .ok (.ldReg 0xA 0xB) ∧ decode 0x8AB1 = .ok (.orReg 0xA 0xB) ∧
    decode 0x8AB2 = .ok (.andReg 0xA 0xB) ∧ decode 0x8AB3 = .ok (.xorReg 0xA 0xB) ∧
    decode 0x8AB4 = .ok (.addReg 0xA 0xB) ∧ decode 0x8AB5 = .ok (.subReg 0xA 0xB) ∧
    decode 0x8AB6 = .ok (.shr 0xA 0xB) ∧ decode 0x8AB7 = .ok (.subnReg 0xA 0xB) ∧
    decode 0x8ABE = .ok (.shl 0xA 0xB) ∧ decode 0xC1FE = .ok (.rnd 1 0xFE) :=
  ⟨rfl, rfl, rfl, rfl, rfl, rfl, rfl, rfl, rfl, rfl, rfl, rfl⟩

theorem test_decode_index_display :
    decode 0xA234 = .ok (.ldI 0x234) ∧ decode 0xD123 = .ok (.drw 1 2 3) ∧ decode 0xF31E = .ok (.addI 3) ∧
    decode 0xF429 = .ok (.ldF 4) ∧ decode 0xF533 = .ok (.ldB 5) ∧ decode 0xF655 = .ok (.storeRegs 6) ∧
    decode 0xF765 = .ok (.loadRegs 7) := ⟨rfl, rfl, rfl, rfl, rfl, rfl, rfl⟩

theorem test_decode_keypad_timers :
    decode 0xE89E = .ok (.skp 8) ∧ decode 0xE9A1 = .ok (.sknp 9) ∧ decode 0xFA07 = .ok (.ldVxDt 0xA) ∧
    decode 0xFB0A = .ok (.ldVxK 0xB) ∧ decode 0xFC15 = .ok (.ldDtVx 0xC) ∧ decode 0xFD18 = .ok (.ldStVx 0xD) :=
  ⟨rfl, rfl, rfl, rfl, rfl, rfl⟩

/-- 95_test_vectors.md 2.1: unrecognized words, by name. -/
theorem test_decode_unrecognized :
    decode 0x0000 = .error (.unrecognized 0x0000) ∧ decode 0x00EF = .error (.unrecognized 0x00EF) ∧
    decode 0x512F = .error (.unrecognized 0x512F) ∧ decode 0x8129 = .error (.unrecognized 0x8129) ∧
    decode 0x9121 = .error (.unrecognized 0x9121) ∧ decode 0xE0A0 = .error (.unrecognized 0xE0A0) ∧
    decode 0xF075 = .error (.unrecognized 0xF075) := ⟨rfl, rfl, rfl, rfl, rfl, rfl, rfl⟩

theorem test_decode_bytes :
    decodeBytes [0x81, 0x24, 0x55] = .ok (.addReg 1 2, [0x55]) ∧ decodeBytes [0x81] = .error .truncated ∧
    decodeBytes [0x51, 0x21] = .error (.unrecognized 0x5121) := ⟨rfl, rfl, rfl⟩

theorem test_decode_table_word :
    decodeTableWord 16 0x8124 = some (.addReg 1 2) ∧ decodeTableWord 16 0x8128 = none := ⟨rfl, rfl⟩

theorem test_encode :
    encode (.drw 1 2 5) = 0xD125 ∧ encode (.call 0x400) = 0x2400 ∧ encode (.shl 1 0xA) = 0x81AE ∧
    encodeBytes (.ldByte 0 5) = [0x60, 0x05] := by decide

/-- 95_test_vectors.md P1 and P3: the source's assembly of two words. -/
theorem test_assembly :
    asmText (.addByte 1 0xFF) = "ADD V1,0xFF" ∧ asmText (.jp 0x204) = "JP 0x204" ∧
    asmText (.storeRegs 1) = "LD [I],V1" := by decide

/-! ## Display -/

theorem test_cls_clears :
    fbPixel (cycled { prog 0x00E0 with fb := fbFlip fbBlank 5 3 }).fb 5 3 = false ∧
    (cycled (prog 0x00E0)).dirty = true := by decide -- T1, T2

/-- The set pixels of one row, from column 0 to 63. -/
def rowOf (s : State) (y : Nat) : List Nat := (List.range 64).filter fun x => fbPixel s.fb x y

theorem test_drw_wraps_columns :
    rowOf (cycled { withBytes (prog 0xD011) 0x300 [0xFF] with i := 0x300, v := regs [(0, 0x7C), (1, 0x20)] }) 0
      = [0, 1, 2, 3, 60, 61, 62, 63] := by decide -- T4

theorem test_drw_collides_and_flags :
    let t := cycled { withBytes (prog 0xD011) 0x300 [0xC0] with i := 0x300, fb := fbFlip fbBlank 1 0 }
    rowOf t 0 = [0] ∧ t.getV 0xF = 1 := by decide -- T6

/-! ## Control flow -/

theorem test_ret : (cycled { prog 0x00EE with stack := [0x204, 0x310] }).pc = 0x312 ∧
    (cycled { prog 0x00EE with stack := [0x204, 0x310] }).stack = [0x204] := by decide -- T33

theorem test_ret_underflow : haltsWith (prog 0x00EE) .stackUnderflow 0x00EE 0x200 = true := by decide -- T34

theorem test_jp : (cycled (prog 0x1FFE)).pc = 0xFFE ∧ haltsWith (prog 0x1FFF) .outOfRangeAccess 0x1FFF 0x200 = true := by
  decide -- T21, T22

theorem test_call : (cycled (prog 0x2400)).stack = [0x200] ∧ (cycled (prog 0x2400)).pc = 0x400 := by decide -- T26

theorem test_call_overflow_before_target :
    haltsWith { prog 0x2FFF with stack := List.replicate 16 0x200 } .stackOverflow 0x2FFF 0x200 = true := by
  decide -- T29

theorem test_se_byte : (cycled { prog 0x332A with v := regs [(3, 0x2A)] }).pc = 0x204 ∧
    (cycled { prog 0x332B with v := regs [(3, 0x2A)] }).pc = 0x202 := by decide -- T38, T39

theorem test_sne_byte : (cycled { prog 0x432A with v := regs [(3, 0x2A)] }).pc = 0x202 ∧
    (cycled { prog 0x432B with v := regs [(3, 0x2A)] }).pc = 0x204 := by decide -- T40, T41

theorem test_se_reg : (cycled { prog 0x5120 with v := regs [(1, 7), (2, 7)] }).pc = 0x204 ∧
    (cycled { prog 0x5120 with v := regs [(1, 7), (2, 8)] }).pc = 0x202 := by decide -- T42, T43

theorem test_sne_reg : (cycled { prog 0x9120 with v := regs [(1, 7), (2, 8)] }).pc = 0x204 ∧
    (cycled { prog 0x9120 with v := regs [(1, 7), (2, 7)] }).pc = 0x202 := by decide -- T45, T46

theorem test_jp_v0 : (cycled { prog 0xB2FF with v := regs [(0, 0xFF), (2, 0x55)] }).pc = 0x3FE ∧
    haltsWith { prog 0xBF00 with v := regs [(0, 0xFF)] } .outOfRangeAccess 0xBF00 0x200 = true := by
  decide -- T49, T51

/-! ## Registers and arithmetic -/

theorem test_ld_byte : (cycled (prog 0x6FAB)).getV 0xF = 0xAB := by decide -- T61

theorem test_add_byte : (cycled { prog 0x7301 with v := regs [(3, 0xFF), (0xF, 7)] }).getV 3 = 0 ∧
    (cycled { prog 0x7301 with v := regs [(3, 0xFF), (0xF, 7)] }).getV 0xF = 7 := by decide -- T63

theorem test_ld_reg : (cycled { prog 0x8120 with v := regs [(2, 0x7B)] }).getV 1 = 0x7B := by decide -- T66

theorem test_or_reg : let t := cycled { prog 0x8121 with v := regs [(1, 0xF0), (2, 0x0F), (0xF, 5)] }
    t.getV 1 = 0xFF ∧ t.getV 0xF = 5 := by decide -- T68

theorem test_and_reg : let t := cycled { prog 0x8122 with v := regs [(1, 0xF0), (2, 0x3C), (0xF, 5)] }
    t.getV 1 = 0x30 ∧ t.getV 0xF = 5 := by decide -- T69

theorem test_xor_reg : let t := cycled { prog 0x8123 with v := regs [(1, 0xF0), (2, 0x3C), (0xF, 5)] }
    t.getV 1 = 0xCC ∧ t.getV 0xF = 5 := by decide -- T70

theorem test_add_reg : let t := cycled { prog 0x8124 with v := regs [(1, 0xC8), (2, 0x64)] }
    t.getV 1 = 0x2C ∧ t.getV 0xF = 1 := by decide -- T72

theorem test_add_reg_into_vf : (cycled { prog 0x8F14 with v := regs [(1, 1), (0xF, 1)] }).getV 0xF = 0 := by
  decide -- T78

theorem test_sub_reg : let t := cycled { prog 0x8125 with v := regs [(1, 0x64), (2, 0xC8)] }
    t.getV 1 = 0x9C ∧ t.getV 0xF = 0 := by decide -- T81

theorem test_sub_reg_equal : (cycled { prog 0x8125 with v := regs [(1, 0x33), (2, 0x33)] }).getV 0xF = 1 := by
  decide -- T83

theorem test_shr : let t := cycled { prog 0x81A6 with v := regs [(1, 5), (0xA, 0xEE)] }
    t.getV 1 = 2 ∧ t.getV 0xF = 1 ∧ t.getV 0xA = 0xEE := by decide -- T94

theorem test_shr_logical : (cycled { prog 0x8106 with v := regs [(1, 0xFF)] }).getV 1 = 0x7F := by decide -- T93

theorem test_subn_reg : let t := cycled { prog 0x8127 with v := regs [(1, 0x64), (2, 0xC8)] }
    t.getV 1 = 0x64 ∧ t.getV 0xF = 1 := by decide -- T97

theorem test_subn_reg_borrow : let t := cycled { prog 0x8127 with v := regs [(1, 0xC8), (2, 0x64)] }
    t.getV 1 = 0x9C ∧ t.getV 0xF = 0 := by decide -- T98

theorem test_shl : let t := cycled { prog 0x810E with v := regs [(1, 0x81)] }
    t.getV 1 = 2 ∧ t.getV 0xF = 1 := by decide -- T102

theorem test_shl_no_bit : let t := cycled { prog 0x810E with v := regs [(1, 0x7F), (0xF, 1)] }
    t.getV 1 = 0xFE ∧ t.getV 0xF = 0 := by decide -- T103

/-- T110: NN = 00 gives 00 for any random byte. -/
theorem test_rnd_mask_zero : (cycled { prog 0xC100 with v := regs [(1, 0x99)] }).getV 1 = 0 := by
  show State.randomByte _ &&& 0#8 = 0#8
  simp

/-- T111: NN = FF gives the random byte. -/
theorem test_rnd_mask_ones : (cycled (prog 0xC1FF)).getV 1 = Config.rnd 0 := by
  show Config.rnd 0 &&& 255#8 = _
  exact BitVec.and_allOnes

/-! ## Index register and memory -/

theorem test_ld_i : (cycled (prog 0xAFFF)).i = 0xFFF := by decide -- T114

theorem test_add_i : (cycled { prog 0xF21E with i := 0xF80, v := regs [(2, 0xFF)] }).i = 0x07F := by decide -- T117

theorem test_ld_f : (cycled { prog 0xF329 with v := regs [(3, 0x1A)] }).i = 0x032 := by decide -- T122

theorem test_ld_b : let t := cycled { prog 0xF133 with i := 0xFFD, v := regs [(1, 0xC8)] }
    memGetN t.mem 0xFFD 3 = [2, 0, 0] := by decide -- T129

theorem test_ld_b_range : let s := { prog 0xF133 with i := 0xFFE, v := regs [(1, 0xC8)] }
    haltsWith s .outOfRangeAccess 0xF133 0x200 = true ∧ memGet (cycled s).mem 0xFFE = 0 := by decide -- T130

theorem test_store_regs : let t := cycled { prog 0xF255 with i := 0x300, v := regs [(0, 0x11), (1, 0x22), (2, 0x33), (3, 0x44)] }
    memGetN t.mem 0x300 4 = [0x11, 0x22, 0x33, 0] ∧ t.i = 0x300 := by decide -- T132

theorem test_store_regs_range : let s := { prog 0xF155 with i := 0xFFF, v := regs [(0, 0xAB), (1, 0xCD)] }
    haltsWith s .outOfRangeAccess 0xF155 0x200 = true ∧ memGet (cycled s).mem 0xFFF = 0 := by decide -- T134

theorem test_load_regs :
    let t := cycled { withBytes (prog 0xF265) 0x300 [0xDE, 0xAD, 0xBE, 0xEF] with i := 0x300, v := regs [(3, 0x77)] }
    t.getV 0 = 0xDE ∧ t.getV 1 = 0xAD ∧ t.getV 2 = 0xBE ∧ t.getV 3 = 0x77 := by decide -- T137

theorem test_load_regs_font : (cycled { prog 0xFF65 with i := 0x02D }).v.toList =
    [0xF0, 0x90, 0xF0, 0x10, 0xF0, 0xF0, 0x90, 0xF0, 0x90, 0x90, 0xE0, 0x90, 0xE0, 0x90, 0xE0, 0xF0] := by
  decide -- T141

/-! ## Keypad and timers -/

theorem test_skp : (cycled { prog 0xE49E with v := regs [(4, 0xA)], keys := 0x0400 }).pc = 0x204 ∧
    (cycled { prog 0xE49E with v := regs [(4, 0xA)] }).pc = 0x202 := by decide -- T143, T144

theorem test_skp_index : haltsWith { prog 0xE49E with v := regs [(4, 0x10)], keys := 1 } .outOfRangeAccess 0xE49E 0x200 = true := by
  decide -- T145

theorem test_sknp : (cycled { prog 0xE4A1 with v := regs [(4, 0xA)] }).pc = 0x204 ∧
    (cycled { prog 0xE4A1 with v := regs [(4, 0xA)], keys := 0x0400 }).pc = 0x202 := by decide -- T147, T148

theorem test_ld_vx_dt : let t := cycled { prog 0xF307 with dt := 0x20 }
    t.getV 3 = 0x20 ∧ t.dt = 0x1F := by decide -- T150

theorem test_ld_dt_vx : (cycled { prog 0xF315 with v := regs [(3, 0x3C)] }).dt = 0x3B ∧
    (cycled { prog 0xF315 with dt := 9 }).dt = 0 := by decide -- T153, T154

theorem test_ld_st_vx : (cycled { prog 0xF318 with v := regs [(3, 2)] }).toneActive = true ∧
    (cycled { prog 0xF318 with v := regs [(3, 1)] }).toneActive = false := by decide -- T157, T158

theorem test_ld_vx_k_blocks : let t := cycled { prog 0xF50A with dt := 5, st := 3 }
    t.pc = 0x200 ∧ t.dt = 5 ∧ t.st = 3 := by decide -- T160

/-- T161: one key pressed leaves no choice. -/
theorem test_ld_vx_k_reports (c : Nat) : selectKey c 0x0080 = 7 := by
  show [7].getD (c % 1) 0 = 7
  rw [Nat.mod_one]
  rfl

/-! ## The cycle -/

theorem test_tick : let t := cycled { prog 0x1200 with dt := 2, st := 1 }
    t.dt = 1 ∧ t.st = 0 ∧ t.pc = 0x200 := by decide -- T167

theorem test_unrecognized_no_tick : haltsWith { prog 0x0000 with dt := 5 } .unrecognizedOpcode 0x0000 0x200 = true ∧
    (cycled { prog 0x0000 with dt := 5 }).dt = 5 := by decide -- T168

theorem test_reset_alone_halts : haltsWith State.reset .unrecognizedOpcode 0x0000 0x200 = true := by decide -- T169

theorem test_halted_stays : cycled (cycled State.reset) = cycled State.reset := by decide -- T170

theorem test_load_program_limit :
    (loadProgram (List.replicate 3585 0) State.reset).toOption = none ∧
    ((loadProgram (List.replicate 3584 0) State.reset).toOption).isSome = true := by
  simp only [loadProgram, List.length_replicate]
  exact ⟨rfl, rfl⟩ -- S10

/-! ## Witnesses: a state and operands that meet each obligation's hypotheses, at the boundaries of its clauses -/

theorem witness_EncodeOfDecodeIsTheWord : decode 0xD125 = .ok (.drw 1 2 5) := rfl

theorem witness_DecodeAgreesWithOpcodeTable :
    (⟨"8XYE", 0xF00F, 0x800E⟩ : OpRow) ∈ opcodeTable ∧ OpRow.selects ⟨"8XYE", 0xF00F, 0x800E⟩ 0x812E = true := by decide

theorem witness_UnmatchedWordIsUnrecognized : ∀ r ∈ opcodeTable, r.selects 0x812F = false := by decide

theorem witness_LoadsAndAddImmediate :
    [Instr.ldByte 1 5, .addByte 0xF 0xFF, .ldReg 1 2].all (fun i => bothSides i State.reset) = true := by decide

theorem witness_LogicOperationsBitByBit :
    [Instr.orReg 1 2, .andReg 1 2, .xorReg 3 3].all (fun i => bothSides i State.reset) = true := by decide

theorem witness_AddRegisterSetsCarry :
    [Instr.addReg 1 2, .addReg 0xF 2].all (fun i => bothSides i State.reset) = true ∧ (1 : Reg) ≠ 0xF := by decide

theorem witness_SubtractionsSetNoBorrow :
    [Instr.subReg 1 2, .subReg 0xF 2, .subnReg 1 2, .subnReg 0xF 0xF].all (fun i => bothSides i State.reset) = true := by
  decide

theorem witness_ShiftsPutTheLostBitInVF :
    [Instr.shr 1 2, .shr 0xF 2, .shl 1 2, .shl 0xF 0xF].all (fun i => bothSides i State.reset) = true := by decide

theorem witness_RandomByteIsMasked :
    (pcAt 0xFFC).pc.toNat + 2 ≤ 0xFFE ∧ 0xFFE < (pcAt 0xFFD).pc.toNat + 2 ∧ (0x0F : Byte).getLsbD 4 = false ∧
    (0x0F : Byte).getLsbD 3 = true := by decide

/-- VF changes under a flag instruction at fixed data, and stays under the others. -/
theorem witness_OnlyFlagInstructionsWriteVF :
    runsTo (.addReg 1 2) State.reset 0x202 = true ∧ writesFlag (.addReg 1 2) = true ∧
    runsTo (.ldByte 1 5) State.reset 0x202 = true ∧ writesFlag (.ldByte 1 5) = false ∧
    xField (.ldByte 1 5) ≠ some 0xF := by decide

theorem witness_JumpsSetPc :
    runsTo (.jp 0xFFE) State.reset 0xFFE = true ∧ traps (.jp 0xFFF) State.reset .outOfRangeAccess = true ∧
    runsTo (.jpV0 0xEFF) { State.reset with v := regs [(0, 0xFF)] } 0xFFE = true ∧
    traps (.jpV0 0xF00) { State.reset with v := regs [(0, 0xFF)] } .outOfRangeAccess = true := by decide

/-- A machine with `n` stack entries. -/
def deep (n : Nat) : State := { State.reset with stack := List.replicate n 0x200 }

theorem witness_CallPushesItsOwnAddress :
    (deep 16).sp = 16 ∧ traps (.call 0x400) (deep 16) .stackOverflow = true ∧
    (deep 15).sp < 16 ∧ runsTo (.call 0xFFE) (deep 15) 0xFFE = true ∧
    traps (.call 0xFFF) (deep 15) .outOfRangeAccess = true := by decide

theorem witness_ReturnPopsAndAdvances :
    traps .ret (deep 0) .stackUnderflow = true ∧
    runsTo .ret { State.reset with stack := [0xFFC] } 0xFFE = true ∧
    traps .ret { State.reset with stack := [0xFFD] } .outOfRangeAccess = true := by decide

theorem witness_StackLimitsAreFatal : (deep 16).sp = 16 ∧ (deep 0).sp = 0 := by decide

theorem witness_CallThenReturnResumesAfterTheCall :
    (deep 15).sp < 16 ∧ runsTo (.call 0xFFE) { deep 15 with pc := 0xFFC } 0xFFE = true ∧
    (answer (exec (.call 0xFFE) { deep 15 with pc := 0xFFC }) State.reset).stack = (deep 15).stack ++ [0xFFC] := by
  decide

theorem witness_RegisterSkips :
    runsTo (.seByte 1 0) (pcAt 0xFFA) 0xFFE = true ∧ traps (.seByte 1 0) (pcAt 0xFFB) .outOfRangeAccess = true ∧
    runsTo (.sneByte 1 0) (pcAt 0xFFC) 0xFFE = true ∧ traps (.sneByte 1 0) (pcAt 0xFFD) .outOfRangeAccess = true ∧
    runsTo (.seReg 1 2) (pcAt 0xFFA) 0xFFE = true ∧ traps (.seReg 1 2) (pcAt 0xFFB) .outOfRangeAccess = true ∧
    runsTo (.sneReg 1 2) (pcAt 0xFFC) 0xFFE = true ∧ traps (.sneReg 1 2) (pcAt 0xFFD) .outOfRangeAccess = true := by
  decide

theorem witness_IndexRegisterLoads :
    [Instr.ldI 0xFFF, .ldF 2].all (fun i => bothSides i State.reset) = true := by decide

theorem witness_AddToIndexWrapsSilently : bothSides (.addI 1) { State.reset with i := 0xFFF } = true := by decide

theorem witness_DecimalDigitsStored :
    bothSides (.ldB 1) { State.reset with i := 0xFFD } = true ∧
    traps (.ldB 1) { State.reset with i := 0xFFE } .outOfRangeAccess = true := by decide

theorem witness_RegistersStored :
    bothSides (.storeRegs 0xF) { State.reset with i := 0xFF0 } = true ∧
    traps (.storeRegs 0xF) { State.reset with i := 0xFF1 } .outOfRangeAccess = true := by decide

theorem witness_RegistersLoaded :
    bothSides (.loadRegs 0xF) { State.reset with i := 0xFF0 } = true ∧
    traps (.loadRegs 0xF) { State.reset with i := 0xFF1 } .outOfRangeAccess = true := by decide

theorem witness_StoreThenLoadRestoresRegisters :
    let s := { pcAt 0xFFA with i := 0xFF0 }
    let t := answer (exec (.storeRegs 0xF) s) s
    runsTo (.storeRegs 0xF) s 0xFFC = true ∧ runsTo (.loadRegs 0xF) { t with v := regs [] } 0xFFE = true := by
  decide

theorem witness_StoreIsSeenByTheNextFetch :
    let s := { State.reset with i := 0x202, v := regs [(0, 0x12), (1, 0x0A)] }
    runsTo (.storeRegs 1) s 0x202 = true ∧ s.i.toNat = s.pc.toNat + 2 ∧
    (fetch (answer (exec (.storeRegs 1) s) s)).toOption = some 0x120A := by decide

theorem witness_ByteAccessPrimitives :
    (memRead [] 0xFFF).toOption = some 0 ∧ (memRead [] 0x1000).toOption = none ∧
    ((memWriteN [] 0xFFF [7]).toOption).isSome = true ∧ (memWriteN [] 0x1000 [7]).toOption = none := by decide

theorem witness_ClearScreenUnsetsEveryPixel : bothSides .cls State.reset = true := by decide

theorem witness_DrawXorsTheSprite :
    bothSides (.drw 1 2 4) { State.reset with i := 0xFFC } = true ∧
    traps (.drw 1 2 4) { State.reset with i := 0xFFD } .outOfRangeAccess = true ∧
    bothSides (.drw 1 2 0) { State.reset with i := 0xFFFF } = true := by decide

/-- Sprite bits are over a pixel and a pixel is set under one; another pixel is under none. -/
theorem witness_DrawXorsTheSprite_covers : Covers 60 0 [0x81] 3 0 ∧ ¬ Covers 60 0 [0x81] 4 0 := by
  refine ⟨⟨0, 7, by decide, by decide, by decide, by decide, by decide⟩, ?_⟩
  rintro ⟨j, i, h, hi, -, hx, -⟩
  omega

theorem witness_CollisionIsSetPixelUnderSpriteBit :
    (drawSprite State.reset 63 31 [0x80]).collision = false ∧
    (drawSprite { State.reset with fb := fbFlip fbBlank 63 31 } 63 31 [0x80]).collision = true ∧
    (List.replicate 15 (0xFF : Byte)).length ≤ 15 := by decide

/-- One-bit sprites at the corners of the clause: the first bit of one row and the last bit of the last of 15 rows. -/
theorem witness_CollisionIsSetPixelUnderSpriteBit_oneBit :
    OnlyBit [0x80] 0 0 ∧ OnlyBit (List.replicate 14 0x00 ++ [0x01]) 14 7 ∧
    (List.replicate 14 (0x00 : Byte) ++ [0x01]).length ≤ 15 := by
  have h0 : ∀ j' < 1, ∀ i' < 8, (([0x80] : List Byte)[j']?.getD 0).getLsbD (7 - i') = true → j' = 0 ∧ i' = 0 := by decide
  have h1 : ∀ j' < 15, ∀ i' < 8, ((List.replicate 14 (0x00 : Byte) ++ [0x01])[j']?.getD 0).getLsbD (7 - i') = true →
      j' = 14 ∧ i' = 7 := by decide
  refine ⟨⟨⟨by decide, by decide, by decide⟩, ?_⟩, ⟨⟨by decide, by decide, by decide⟩, ?_⟩, by decide⟩
  · rintro j' i' ⟨h, hi, hb⟩
    exact h0 j' h i' hi (by rw [List.getElem?_eq_getElem h]; exact hb)
  · rintro j' i' ⟨h, hi, hb⟩
    exact h1 j' h i' hi (by rw [List.getElem?_eq_getElem h]; exact hb)

theorem witness_DrawingTwiceRestoresTheGrid : (List.replicate 15 (0xFF : Byte)).length ≤ 15 ∧
    (drawSprite State.reset 60 30 (List.replicate 15 0xFF)).fb ≠ State.reset.fb := by decide

theorem witness_StartCoordinatesWrap :
    (0x7C : Byte).toNat % 64 = (0x3C : Byte).toNat % 64 ∧ (0x20 : Byte).toNat % 32 = (0x00 : Byte).toNat % 32 := by decide

theorem witness_KeypadSkips :
    let s (b : Byte) (p : Word) : State := { pcAt p with v := regs [(4, b)], keys := 0x8000 }
    runsTo (.skp 4) (s 15 0xFFA) 0xFFE = true ∧ traps (.skp 4) (s 15 0xFFB) .outOfRangeAccess = true ∧
    runsTo (.skp 4) (s 0 0xFFC) 0xFFE = true ∧ traps (.skp 4) (s 16 0x200) .outOfRangeAccess = true ∧
    runsTo (.sknp 4) (s 0 0xFFA) 0xFFE = true ∧ traps (.sknp 4) (s 0 0xFFB) .outOfRangeAccess = true ∧
    runsTo (.sknp 4) (s 15 0xFFC) 0xFFE = true ∧ traps (.sknp 4) (s 16 0x200) .outOfRangeAccess = true := by
  decide

theorem witness_DelayTimerIsReadBeforeTheTick :
    bothSides (.ldVxDt 1) State.reset = true ∧ Fetches (prog 0xF307) (.ldVxDt 3) :=
  ⟨by decide, rfl, by decide, rfl⟩

theorem witness_TimersWrittenAreTickedInTheSameCycle :
    bothSides (.ldDtVx 1) State.reset = true ∧ bothSides (.ldStVx 1) State.reset = true ∧
    Fetches (prog 0xF315) (.ldDtVx 3) ∧ Fetches (prog 0xF318) (.ldStVx 3) :=
  ⟨by decide, by decide, ⟨rfl, by decide, rfl⟩, ⟨rfl, by decide, rfl⟩⟩

theorem witness_KeyWaitReportsAPressedKey :
    State.reset.keys = 0 ∧ ({ State.reset with keys := 0x8001 } : State).keys ≠ 0 ∧
    Fetches (prog 0xF50A) (.ldVxK 5) ∧ Fetches { prog 0xF50A with keys := 0x8001 } (.ldVxK 5) :=
  ⟨rfl, by decide, ⟨rfl, by decide, rfl⟩, ⟨rfl, by decide, rfl⟩⟩

theorem witness_FetchIsBigEndian : (pcAt 0xFFE).pc.toNat ≤ 0xFFE := by decide

theorem witness_StepRunsTheDecodedInstruction : Fetches (prog 0x8124) (.addReg 1 2) := ⟨rfl, by decide, rfl⟩

theorem witness_BlockedCycleChangesNothing : Fetches (prog 0xFF0A) (.ldVxK 0xF) ∧ (prog 0xFF0A).keys = 0 :=
  ⟨⟨rfl, by decide, rfl⟩, rfl⟩

theorem witness_UnrecognizedWordHalts :
    (prog 0x5121).halted = false ∧ (prog 0x5121).pc.toNat ≤ 0xFFE ∧
    ∀ r ∈ opcodeTable, r.selects (wordAtPc (prog 0x5121)) = false := by decide

theorem witness_EveryInstructionsPcAndFatalCondition :
    (deep 16).pc.toNat ≤ 0xFFE ∧ (deep 16).sp ≤ 16 ∧ (deep 16).fatal = none ∧
    fatalOf (.call 0xFFF) (deep 16) = some .stackOverflow ∧ fatalOf (.call 0xFFE) (deep 15) = none ∧
    fatalOf .ret (deep 0) = some .stackUnderflow ∧ fatalOf (.jp 0xFFF) (deep 0) = some .outOfRangeAccess := by
  decide

theorem witness_FatalCycleIsPrecise :
    (prog 0x00EE).halted = false ∧ (prog 0x00EE).pc.toNat ≤ 0xFFE ∧ (cycled (prog 0x00EE)).halted = true := by
  decide

/-- A halted machine. -/
def stopped : State := cycled (prog 0x00EE)

theorem witness_HaltedIsAbsorbing : stopped.halted = true := by decide

theorem witness_OnlyResetLeavesHalted :
    stopped.halted = true ∧ (∀ e ∈ [Event.cycle, .setKey 3 true, .takeDirty, .loadProgram [0x12, 0x00]], e ≠ .reset) ∧
    (answer (runEvents [.cycle, .setKey 3 true, .takeDirty, .loadProgram [0x12, 0x00]] stopped) stopped).keys = 8 := by
  decide

theorem witness_ResetStatedValues : 0x050 ≤ 0x0FF ∧ 79 < font.length := by decide

/-- The reset state meets the invariant, and steps to a state there. -/
theorem witness_StepKeepsTheInvariant : State.reset.Inv ∧ step State.reset = .next (cycled State.reset) := by
  refine ⟨⟨by decide, by decide, by decide, fun w hw => ?_, rfl, fun d hd => ?_, fun d hd => ?_, fun d hd => ?_⟩, rfl⟩
  · cases hw
  · cases hd
  · cases hd
  · cases hd

theorem witness_EveryScheduleKeepsTheInvariant : State.reset.Inv ∧
    runEvents [.loadProgram [0x60, 0x05], .cycle] State.reset =
      .next (answer (runEvents [.loadProgram [0x60, 0x05], .cycle] State.reset) State.reset) :=
  ⟨witness_StepKeepsTheInvariant.1, rfl⟩

theorem witness_KeypadIsWrittenByTheHostAlone :
    step (prog 0x6005) = .next (cycled (prog 0x6005)) ∧
    exec (.ldByte 0 5) State.reset = .next (answer (exec (.ldByte 0 5) State.reset) State.reset) := ⟨rfl, rfl⟩

/-- Each storage is written by one of its instructions. -/
theorem witness_EachStorageHasItsWriters :
    let s : State := { State.reset with i := 0x300, v := regs [(1, 0x7B)] }
    (answer (exec (.ldB 1) s) s).mem ≠ s.mem ∧ (answer (exec (.storeRegs 1) s) s).mem ≠ s.mem ∧
    (answer (exec .cls s) s).dirty = true ∧ (answer (exec (.call 0x400) s) s).stack ≠ s.stack ∧
    (answer (exec (.ldI 0) s) s).i ≠ s.i ∧ (answer (exec (.addI 1) s) s).i ≠ s.i ∧ (answer (exec (.ldF 1) s) s).i ≠ s.i ∧
    (answer (exec (.ldDtVx 1) s) s).dt ≠ s.dt ∧ (answer (exec (.ldStVx 1) s) s).st ≠ s.st := by decide

theorem witness_OneRandomBytePerCompletedRnd :
    Fetches (prog 0xC10F) (.rnd 1 0x0F) ∧ Fetches (prog 0x6005) (.ldByte 0 5) ∧
    Fetches { pcAt 0xFFE with mem := [(0xFFE, 0xC1), (0xFFF, 0x0F)] } (.rnd 1 0x0F) :=
  ⟨⟨rfl, by decide, rfl⟩, ⟨rfl, by decide, rfl⟩, ⟨rfl, by decide, rfl⟩⟩

theorem witness_DirtyAffectsNothing : step (prog 0xD011) = .next (cycled (prog 0xD011)) := rfl

theorem witness_OldOpcodeLatchIsNeverRead : (prog 0x6005).halted = false ∧ (prog 0x6005).pc.toNat ≤ 0xFFE := by decide

theorem witness_LoadProgramCopiesBytes :
    (List.replicate 3584 (0 : Byte)).length ≤ 3584 ∧ 3584 < (List.replicate 3585 (0 : Byte)).length := by
  rw [List.length_replicate, List.length_replicate]
  decide

theorem witness_KeyAndDirtyOperations : (15 : Nat) < 16 ∧ 15 ≠ (0 : Nibble).toNat := by decide

end Sys2Proof.Tests
end

section
/-!
PROOFS. The cycle of a fetched instruction, and the blocked cycle of FX0A (10_state.md R26, R28).
-/

namespace Sys2Proof.Machine

open Sys2Proof.Claims Host

/-! ## The cycle of a fetched instruction -/

/-- With PC in range the fetch answers the word at PC (20_memory.md R46). -/
theorem fetch_eq_wordAtPc {s : State} (h : s.pc.toNat ≤ 0xFFE) : fetch s = .ok (wordAtPc s) := fetch_ok h

/-- IR takes no part in what the next cycle fetches (10_state.md R21). -/
@[simp] theorem fetches_setIr (s : State) (w : Word) (i : Instr) : Fetches (s.setIr w) i ↔ Fetches s i := Iff.rfl

/-- The cycle of a fetched instruction is its execution, with IR written, and the end of that cycle (10_state.md R26). -/
theorem step_of_fetches {s : State} {i : Instr} (h : Fetches s i) :
    step s = afterExec i (s.setIr (wordAtPc s)) (exec i (s.setIr (wordAtPc s))) := by
  obtain ⟨hrun, hpc, hdec⟩ := h
  simp [step, cycle, hrun, fetch_eq_wordAtPc hpc, hdec]

/-! ## The blocked cycle -/

@[simp] theorem blocked_ldVxK (x : Reg) (s : State) : blocked (.ldVxK x) s = (s.keys == 0) := rfl

/-- With no key pressed FX0A has no effect, the advance of PC included (44_keypad_timers.md R138). -/
theorem exec_ldVxK_of_no_key {s : State} (x : Reg) (h : s.keys = 0) : exec (.ldVxK x) s = .next s := if_pos h

/-- A blocked cycle ends without a tick (10_state.md R28). -/
theorem endCycle_of_blocked {i : Instr} {s : State} (s' : State) (h : blocked i s = true) : endCycle i s s' = s' := by
  simp [endCycle, h]

/-- The cycle of FX0A with no key pressed writes IR and nothing else (10_state.md R28). -/
theorem step_ldVxK_of_no_key {s : State} {x : Reg} (hf : Fetches s (.ldVxK x)) (hk : s.keys = 0) :
    step s = .next (s.setIr (wordAtPc s)) := by
  have hk' : (s.setIr (wordAtPc s)).keys = 0 := hk
  have hb : blocked (.ldVxK x) (s.setIr (wordAtPc s)) = true := by simp [hk]
  rw [step_of_fetches hf, exec_ldVxK_of_no_key x hk', afterExec, endCycle_of_blocked _ hb]

/-- Settles O39: the blocked cycle only writes IR, which the next fetch does not read. -/
theorem blockedCycleChangesNothing : Obligations.BlockedCycleChangesNothing := by
  intro s x hf hk
  exact ⟨step_ldVxK_of_no_key hf hk, (fetches_setIr s _ _).2 hf⟩

end Sys2Proof.Machine
end

section
/-!
PROOFS. The byte order of the fetched word (20_memory.md R46).
-/

namespace Sys2Proof.Machine

open Sys2Proof.Claims

/-- Two bytes put together as a number: the first is the high byte. -/
theorem toNat_byte_append (hi lo : Byte) : BitVec.toNat (w := 16) (hi ++ lo) = 256 * hi.toNat + lo.toNat := by
  have hdisjoint : hi.toNat <<< 8 ||| lo.toNat = hi.toNat <<< 8 + lo.toNat :=
    (Nat.shiftLeft_add_eq_or_of_lt lo.isLt hi.toNat).symm
  calc BitVec.toNat (w := 16) (hi ++ lo)
      = hi.toNat <<< 8 ||| lo.toNat := BitVec.toNat_append hi lo
    _ = 256 * hi.toNat + lo.toNat := by rw [hdisjoint, Nat.shiftLeft_eq]; omega

/-- The word at PC is big-endian (20_memory.md R46). -/
theorem wordAtPc_toNat (s : State) :
    (wordAtPc s).toNat = 256 * (memGet s.mem s.pc.toNat).toNat + (memGet s.mem (s.pc.toNat + 1)).toNat :=
  toNat_byte_append _ _

/-- Settles O37: with PC in range the fetch answers the word at PC, whose high byte is the one at the lower address. -/
theorem fetchIsBigEndian : Obligations.FetchIsBigEndian := by
  intro s hpc
  exact ⟨wordAtPc s, fetch_eq_wordAtPc hpc, wordAtPc_toNat s⟩

end Sys2Proof.Machine
end

section
/-!
PROOFS. Sequential completion, and 00E0 CLS (10_state.md R27; 40_display.md R80, R84).
-/

namespace Sys2Proof.Machine

open Sys2Proof.Claims

/-- A form that advances PC after the effect `s'` is sequential, with whatever holds of `s'` at the next PC
(10_state.md R27). -/
theorem sequential_of_advance {i : Instr} {s s' : State} {P : State → Prop} (hexec : exec i s = advance s s')
    (hP : P (s'.setPc (BitVec.ofNat 16 (s.pc.toNat + 2)))) : Sequential i s P := by
  intro hpc
  exact ⟨_, hexec.trans (advance_ok hpc), setPc_toNat hpc, hP⟩

/-- 00E0 advances PC after clearing the screen (40_display.md R84). -/
theorem exec_cls (s : State) : exec .cls s = advance s (clearScreen s) := rfl

/-- Settles O28: the cleared grid has every pixel unset, and clearing writes the grid and `dirty` alone. -/
theorem clearScreenUnsetsEveryPixel : Obligations.ClearScreenUnsetsEveryPixel := by
  intro s
  refine sequential_of_advance (exec_cls s) ⟨?pixels, rfl, ?registers, ?memory, rfl⟩
  case pixels => intro px py _ _; exact fbPixel_fbBlank px py
  case registers => intro k; rfl
  case memory => intro a; rfl

end Sys2Proof.Machine
end

section
/-!
PROOFS. The skips by a comparison of registers (41_control_flow.md R93 to R96, R98).
-/

namespace Sys2Proof.Machine

open Sys2Proof.Claims

/-- Writing PC is within the frame of every register-only form. -/
theorem regFrame_setPc (ws : List Reg) (s : State) (pc : Word) : RegFrame ws s (s.setPc pc) :=
  ⟨fun _ _ => rfl, fun _ => rfl, rfl⟩

/-- Completing a state with no effect at a PC in range writes PC and nothing else (10_state.md R27). -/
theorem completeAt_self_frame {s : State} {t : Nat} (ht : t ≤ 0xFFE) :
    ∃ s', completeAt s s t = .next s' ∧ s'.pc.toNat = t ∧ RegFrame [] s s' :=
  ⟨_, completeAt_ok ht, setPc_toNat ht, regFrame_setPc [] s _⟩

/-- A form that executes as `skipIf` skips by any statement of its condition (41_control_flow.md R98). -/
theorem skips_of_skipIf {i : Instr} {s : State} {c : Bool} {cond : Prop} (hexec : exec i s = skipIf c s)
    (hcond : c = true ↔ cond) : Skips i s cond := by
  unfold Skips
  rw [hexec, skipIf]
  refine ⟨fun holds hpc => ?_, fun fails hpc => ?_⟩
  · rw [if_pos (hcond.mpr holds)]
    exact completeAt_self_frame hpc
  · rw [if_neg (mt hcond.mp fails)]
    exact completeAt_self_frame hpc

/-- The comparison of two bytes, as one of numbers (10_state.md R10). -/
theorem beq_iff_toNat_eq (a b : Byte) : (a == b) = true ↔ a.toNat = b.toNat :=
  beq_iff_eq.trans BitVec.toNat_inj.symm

theorem bne_iff_toNat_ne (a b : Byte) : (a != b) = true ↔ a.toNat ≠ b.toNat :=
  bne_iff_ne.trans BitVec.toNat_ne_iff_ne.symm

/-- Settles O19: each of the four is `skipIf` of its comparison of bytes, which is the one of their numbers. -/
theorem registerSkips : Obligations.RegisterSkips := by
  intro x y nn s
  refine ⟨?seByte, ?sneByte, ?seReg, ?sneReg⟩
  case seByte => exact skips_of_skipIf rfl (beq_iff_toNat_eq (s.getV x) nn)
  case sneByte => exact skips_of_skipIf rfl (bne_iff_toNat_ne (s.getV x) nn)
  case seReg => exact skips_of_skipIf rfl (beq_iff_toNat_eq (s.getV x) (s.getV y))
  case sneReg => exact skips_of_skipIf rfl (bne_iff_toNat_ne (s.getV x) (s.getV y))

end Sys2Proof.Machine
end

section
/-!
PROOFS. The forms that write one register: 6XNN, 7XNN and 8XY0 (42_alu.md R105 to R107).
-/

namespace Sys2Proof.Machine

open Sys2Proof.Claims

/-- A register reads as the last value written to it (10_state.md R10). -/
@[simp] theorem State.getV_setV_self (s : State) (x : Reg) (b : Byte) : (s.setV x b).getV x = b := by
  rw [State.getV_setV, if_pos rfl]

/-- A write to a register leaves the others (10_state.md R10). -/
theorem State.getV_setV_of_ne (s : State) {x k : Reg} (b : Byte) (h : k ≠ x) : (s.setV x b).getV k = s.getV k := by
  rw [State.getV_setV, if_neg h]

/-- Writing a register, then PC, is within the frame of the forms that write that register alone. -/
theorem regFrame_setV_setPc (s : State) (x : Reg) (b : Byte) (pc : Word) : RegFrame [x] s ((s.setV x b).setPc pc) := by
  refine ⟨?registers, fun _ => rfl, rfl⟩
  case registers =>
    intro k hk
    exact State.getV_setV_of_ne s b (List.ne_of_not_mem_cons hk)

/-- A form that writes `b` to Vx and advances PC is sequential within its frame, with whatever follows of a state where
Vx is `b` (10_state.md R27). -/
theorem sequential_of_setV {i : Instr} {s : State} {x : Reg} {b : Byte} {Q : State → Prop}
    (hexec : exec i s = advance s (s.setV x b)) (hQ : ∀ t, t.getV x = b → Q t) :
    Sequential i s (fun t => Q t ∧ RegFrame [x] s t) :=
  sequential_of_advance hexec ⟨hQ _ (State.getV_setV_self s x b), regFrame_setV_setPc s x b _⟩

/-- 6XNN writes NN to Vx and advances PC (42_alu.md R105). -/
theorem exec_ldByte (x : Reg) (nn : Byte) (s : State) : exec (.ldByte x nn) s = advance s (s.setV x nn) := rfl

/-- 7XNN writes the sum to Vx, no flag, and advances PC (42_alu.md R106). -/
theorem exec_addByte (x : Reg) (nn : Byte) (s : State) :
    exec (.addByte x nn) s = advance s (s.setV x (s.getV x + nn)) := rfl

/-- 8XY0 writes Vy to Vx and advances PC (42_alu.md R107). -/
theorem exec_ldReg (x y : Reg) (s : State) : exec (.ldReg x y) s = advance s (s.setV x (s.getV y)) := rfl

/-- Settles O7: each of the three writes Vx alone and advances PC; the sum of two bytes is the one modulo 256. -/
theorem loadsAndAddImmediate : Obligations.LoadsAndAddImmediate := by
  intro x y nn s
  refine ⟨?ldByte, ?addByte, ?ldReg⟩
  case ldByte => exact sequential_of_setV (exec_ldByte x nn s) fun _ hx => hx
  case addByte =>
    refine sequential_of_setV (exec_addByte x nn s) fun t hx => ?_
    rw [hx]
    exact BitVec.toNat_add (s.getV x) nn
  case ldReg => exact sequential_of_setV (exec_ldReg x y s) fun _ hx => hx

end Sys2Proof.Machine
end

section
/-!
PROOFS. The forms that load I: ANNN and FX29 (43_index_memory.md R125, R127).
-/

namespace Sys2Proof.Machine

open Sys2Proof.Claims

/-- Writing I, then PC, is within the frame of the forms that write I alone. -/
theorem indexFrame_setI_setPc (s : State) (w pc : Word) : IndexFrame s ((s.setI w).setPc pc) :=
  ⟨fun _ => rfl, fun _ => rfl, rfl⟩

/-- A form that writes `w` to I and advances PC is sequential within its frame, with the number of `w` in I
(10_state.md R27). -/
theorem sequential_of_setI {i : Instr} {s : State} {w : Word} {n : Nat} (hexec : exec i s = advance s (s.setI w))
    (hw : w.toNat = n) : Sequential i s (fun t => t.i.toNat = n ∧ IndexFrame s t) :=
  sequential_of_advance hexec ⟨hw, indexFrame_setI_setPc s w _⟩

/-- ANNN writes NNN to I and advances PC (43_index_memory.md R125). -/
theorem exec_ldI (nnn : Addr) (s : State) : exec (.ldI nnn) s = advance s (s.setI (nnn.setWidth 16)) := rfl

/-- FX29 writes the address of the glyph of Vx to I and advances PC (43_index_memory.md R127). -/
theorem exec_ldF (x : Reg) (s : State) : exec (.ldF x) s = advance s (s.setI (glyphAddress (s.getV x))) := rfl

/-- Glyphs are 5 bytes each from address 0, and the last one begins at 75 (43_index_memory.md R127). -/
theorem glyphAddress_toNat (b : Byte) : (glyphAddress b).toNat = 5 * (b.toNat % 16) := by
  have hfits : 5 * (b.toNat % 16) < 2 ^ 16 := by omega
  rw [glyphAddress, Config.fontBase, Config.glyphBytes, Nat.zero_add, BitVec.toNat_ofNat, Nat.mod_eq_of_lt hfits]

/-- Settles O20: each of the two writes I alone; the 12 bits of NNN, and the glyph's address, fit in I. -/
theorem indexRegisterLoads : Obligations.IndexRegisterLoads := by
  intro x nnn s
  refine ⟨?ldI, ?ldF⟩
  case ldI => exact sequential_of_setI (exec_ldI nnn s) (BitVec.toNat_setWidth_of_le (by decide))
  case ldF => exact sequential_of_setI (exec_ldF x s) (glyphAddress_toNat (s.getV x))

end Sys2Proof.Machine
end

section
/-!
PROOFS. Decode and encode (30_encoding.md R60 to R65): an instruction's word is read back, a word that decodes is the
encoding of what it decodes to, and the decision procedure is the mask and match table.
-/

namespace Sys2Proof

/-! ## Decoding an encoding -/

/-- The leading nibble and X of a word laid out nibble by nibble (R61). -/
theorem opA_xyn (a x y n : BitVec 4) : opA ((a ++ x) ++ (y ++ n)) = a := opA_xnn a x (y ++ n)

theorem opX_xyn (a x y n : BitVec 4) : opX ((a ++ x) ++ (y ++ n)) = x := opX_xnn a x (y ++ n)

/-- Every layout gives back its fields, and they select the instruction they came from (R61, R64). -/
theorem decode_encode (i : Instr) : decode (encode i) = .ok i := by
  cases i with
  | cls | ret => rfl
  | jp nnn | call nnn | ldI nnn | jpV0 nnn => simp [encode, decode]
  | seByte x nn | sneByte x nn | ldByte x nn | addByte x nn | rnd x nn => simp [encode, decode]
  | seReg x y | sneReg x y | drw x y n =>
    simp only [encode, decode, opA_xyn, opX_xyn, opY_xyn, opN_xyn]
    rfl
  | ldReg x y | orReg x y | andReg x y | xorReg x y | addReg x y | subReg x y | shr x y | subnReg x y | shl x y =>
    simp only [encode, decode, decode8, opA_xyn, opX_xyn, opY_xyn, opN_xyn]
    rfl
  | skp x | sknp x => simp [encode, decode, decodeE]
  | ldVxDt x | ldVxK x | ldDtVx x | ldStVx x | addI x | ldF x | ldB x | storeRegs x | loadRegs x =>
    simp [encode, decode, decodeF]

/-- The two bytes of a word, the high one first, are the word (20_memory.md R46). -/
theorem opcodeOf_bytes (op : Word) : opcodeOf (op.extractLsb' 8 8) (op.extractLsb' 0 8) = op := by
  apply BitVec.eq_of_getLsbD_eq
  intro k hk
  rw [opcodeOf, bit_word]
  split
  · simp [*]
  · have hhigh : k - 8 < 8 := by omega
    have hback : 8 + (k - 8) = k := by omega
    simp [hhigh, hback]

/-- Decoding a byte string reads its first two bytes and hands on the others (R60). -/
theorem decodeBytes_encodeBytes_append (i : Instr) (rest : List Byte) :
    decodeBytes (encodeBytes i ++ rest) = .ok (i, rest) := by
  simp [encodeBytes, decodeBytes, opcodeOf_bytes, decode_encode]

/-- Settles O1: the fields of an encoding are the instruction's operands, and its two bytes are its word. -/
theorem decodeOfEncodeIsTheInstruction : Obligations.DecodeOfEncodeIsTheInstruction :=
  fun i rest => ⟨decode_encode i, decodeBytes_encodeBytes_append i rest⟩

/-! ## Encoding what a word decodes to -/

/-- A word with a known leading nibble, as the layout of its fields (R61). -/
theorem layout_nnn {op : Word} {a : BitVec 4} (ha : opA op = a) : a ++ opNNN op = op := ha ▸ word_of_nnn op

theorem layout_xnn {op : Word} {a : BitVec 4} (ha : opA op = a) : (a ++ opX op) ++ opNN op = op := ha ▸ word_of_xnn op

/-- A word with a known leading nibble and function nibble N (R61). -/
theorem layout_xy {op : Word} {a n : BitVec 4} (ha : opA op = a) (hn : opN op = n) :
    (a ++ opX op) ++ (opY op ++ n) = op := ha ▸ hn ▸ word_of_xyn op

/-- A word with a known leading nibble and function byte NN (R61). -/
theorem layout_x {op : Word} {a : BitVec 4} {nn : Byte} (ha : opA op = a) (hnn : opNN op = nn) :
    (a ++ opX op) ++ nn = op := ha ▸ hnn ▸ word_of_xnn op

/-- What decoding `op` answered is right: an instruction whose encoding is `op`, or `op` refused by name (R62, R65). -/
def Reads (op : Word) : Except DecodeError Instr → Prop
  | .ok i => encode i = op
  | .error e => e = .unrecognized op

/-- A branch of the decision procedure reads right when both its answers do. -/
theorem reads_ite {op : Word} {c : Prop} [Decidable c] {a b : Except DecodeError Instr} (ha : c → Reads op a)
    (hb : ¬ c → Reads op b) : Reads op (if c then a else b) := by
  split
  · exact ha ‹_›
  · exact hb ‹_›

theorem reads_decode0 (op : Word) : Reads op (decode0 op) :=
  reads_ite (fun hcls => hcls.symm) fun _ => reads_ite (fun hret => hret.symm) fun _ => rfl

/-- The nine function nibbles, then the refusal. -/
theorem reads_decode8 {op : Word} (ha : opA op = 0x8) : Reads op (decode8 op) :=
  reads_ite (layout_xy ha) fun _ => reads_ite (layout_xy ha) fun _ => reads_ite (layout_xy ha) fun _ =>
  reads_ite (layout_xy ha) fun _ => reads_ite (layout_xy ha) fun _ => reads_ite (layout_xy ha) fun _ =>
  reads_ite (layout_xy ha) fun _ => reads_ite (layout_xy ha) fun _ => reads_ite (layout_xy ha) fun _ => rfl

theorem reads_decodeE {op : Word} (ha : opA op = 0xE) : Reads op (decodeE op) :=
  reads_ite (layout_x ha) fun _ => reads_ite (layout_x ha) fun _ => rfl

/-- The nine function bytes, then the refusal. -/
theorem reads_decodeF {op : Word} (ha : opA op = 0xF) : Reads op (decodeF op) :=
  reads_ite (layout_x ha) fun _ => reads_ite (layout_x ha) fun _ => reads_ite (layout_x ha) fun _ =>
  reads_ite (layout_x ha) fun _ => reads_ite (layout_x ha) fun _ => reads_ite (layout_x ha) fun _ =>
  reads_ite (layout_x ha) fun _ => reads_ite (layout_x ha) fun _ => reads_ite (layout_x ha) fun _ => rfl

/-- The one leading nibble that none of the first fifteen branches takes. -/
theorem nibble_eq_0xF {a : BitVec 4} (h0 : a ≠ 0x0) (h1 : a ≠ 0x1) (h2 : a ≠ 0x2) (h3 : a ≠ 0x3) (h4 : a ≠ 0x4)
    (h5 : a ≠ 0x5) (h6 : a ≠ 0x6) (h7 : a ≠ 0x7) (h8 : a ≠ 0x8) (h9 : a ≠ 0x9) (hA : a ≠ 0xA) (hB : a ≠ 0xB)
    (hC : a ≠ 0xC) (hD : a ≠ 0xD) (hE : a ≠ 0xE) : a = 0xF := by
  bv_omega

/-- Every branch of the decision procedure of R64 reads right. -/
theorem reads_decode (op : Word) : Reads op (decode op) :=
  reads_ite (fun _ => reads_decode0 op) fun a0 => reads_ite layout_nnn fun a1 => reads_ite layout_nnn fun a2 =>
  reads_ite layout_xnn fun a3 => reads_ite layout_xnn fun a4 =>
  reads_ite (fun a5 => reads_ite (layout_xy a5) fun _ => rfl) fun a5 => reads_ite layout_xnn fun a6 =>
  reads_ite layout_xnn fun a7 => reads_ite reads_decode8 fun a8 =>
  reads_ite (fun a9 => reads_ite (layout_xy a9) fun _ => rfl) fun a9 => reads_ite layout_nnn fun aA =>
  reads_ite layout_nnn fun aB => reads_ite layout_xnn fun aC => reads_ite (layout_xy · rfl) fun aD =>
  reads_ite reads_decodeE fun aE =>
  reads_decodeF (nibble_eq_0xF a0 a1 a2 a3 a4 a5 a6 a7 a8 a9 aA aB aC aD aE)

/-- Settles O2: each branch of the decision procedure answers the instruction whose layout the word is. -/
theorem encodeOfDecodeIsTheWord : Obligations.EncodeOfDecodeIsTheWord := by
  intro op i h
  simpa [h, Reads] using reads_decode op

/-! ## The mask and match table -/

/-- Every instruction's encoding is selected by the row that lists it (R62). -/
theorem encode_in_row (i : Instr) : Laws.EncodesInRow.Statement i := by
  cases i with
  | cls => exact Laws.EncodesInRow.cls
  | ret => exact Laws.EncodesInRow.ret
  | jp nnn => exact Laws.EncodesInRow.jp nnn
  | call nnn => exact Laws.EncodesInRow.call nnn
  | seByte x nn => exact Laws.EncodesInRow.seByte x nn
  | sneByte x nn => exact Laws.EncodesInRow.sneByte x nn
  | seReg x y => exact Laws.EncodesInRow.seReg x y
  | ldByte x nn => exact Laws.EncodesInRow.ldByte x nn
  | addByte x nn => exact Laws.EncodesInRow.addByte x nn
  | ldReg x y => exact Laws.EncodesInRow.ldReg x y
  | orReg x y => exact Laws.EncodesInRow.orReg x y
  | andReg x y => exact Laws.EncodesInRow.andReg x y
  | xorReg x y => exact Laws.EncodesInRow.xorReg x y
  | addReg x y => exact Laws.EncodesInRow.addReg x y
  | subReg x y => exact Laws.EncodesInRow.subReg x y
  | shr x y => exact Laws.EncodesInRow.shr x y
  | subnReg x y => exact Laws.EncodesInRow.subnReg x y
  | shl x y => exact Laws.EncodesInRow.shl x y
  | sneReg x y => exact Laws.EncodesInRow.sneReg x y
  | ldI nnn => exact Laws.EncodesInRow.ldI nnn
  | jpV0 nnn => exact Laws.EncodesInRow.jpV0 nnn
  | rnd x nn => exact Laws.EncodesInRow.rnd x nn
  | drw x y n => exact Laws.EncodesInRow.drw x y n
  | skp x => exact Laws.EncodesInRow.skp x
  | sknp x => exact Laws.EncodesInRow.sknp x
  | ldVxDt x => exact Laws.EncodesInRow.ldVxDt x
  | ldVxK x => exact Laws.EncodesInRow.ldVxK x
  | ldDtVx x => exact Laws.EncodesInRow.ldDtVx x
  | ldStVx x => exact Laws.EncodesInRow.ldStVx x
  | addI x => exact Laws.EncodesInRow.addI x
  | ldF x => exact Laws.EncodesInRow.ldF x
  | ldB x => exact Laws.EncodesInRow.ldB x
  | storeRegs x => exact Laws.EncodesInRow.storeRegs x
  | loadRegs x => exact Laws.EncodesInRow.loadRegs x

/-- A row is complete when every word it selects is the encoding of an instruction of that row. -/
def RowComplete (r : OpRow) : Prop := ∀ op, r.selects op = true → ∃ i : Instr, encode i = op ∧ i.row = r

theorem opA_of_selects_nnn {p : String} {a : BitVec 4} {op : Word}
    (h : OpRow.selects ⟨p, 0xF#4 ++ 0x000#12, a ++ 0x000#12⟩ op = true) : opA op = a := by
  have hmask : op &&& (0xF#4 ++ 0x000#12) = a ++ 0x000#12 := beq_iff_eq.1 h
  rw [← word_of_nnn op, and_layout_nnn, show opA op &&& 0xF#4 = opA op from BitVec.and_allOnes] at hmask
  simpa using congrArg opA hmask

/-- What a mask that fixes no bit of X says of the leading nibble and of NN. -/
theorem fields_of_selects_x {p : String} {a : BitVec 4} {m nn : Byte} {op : Word}
    (h : OpRow.selects ⟨p, (0xF#4 ++ 0x0#4) ++ m, (a ++ 0x0#4) ++ nn⟩ op = true) :
    opA op = a ∧ opNN op &&& m = nn := by
  have hmask : op &&& ((0xF#4 ++ 0x0#4) ++ m) = (a ++ 0x0#4) ++ nn := beq_iff_eq.1 h
  rw [← word_of_xnn op, and_layout_xnn, show opA op &&& 0xF#4 = opA op from BitVec.and_allOnes] at hmask
  exact ⟨by simpa using congrArg opA hmask, by simpa using congrArg opNN hmask⟩

theorem rowComplete_nnn {p : String} {a : BitVec 4} {f : Addr → Instr} (hword : ∀ nnn, encode (f nnn) = a ++ nnn)
    (hrow : ∀ nnn, (f nnn).row = ⟨p, 0xF#4 ++ 0x000#12, a ++ 0x000#12⟩) :
    RowComplete ⟨p, 0xF#4 ++ 0x000#12, a ++ 0x000#12⟩ := by
  intro op h
  exact ⟨f (opNNN op), (hword _).trans (layout_nnn (opA_of_selects_nnn h)), hrow _⟩

theorem rowComplete_xnn {p : String} {a : BitVec 4} {f : Reg → Byte → Instr}
    (hword : ∀ x nn, encode (f x nn) = (a ++ x) ++ nn)
    (hrow : ∀ x nn, (f x nn).row = ⟨p, (0xF#4 ++ 0x0#4) ++ 0x00#8, (a ++ 0x0#4) ++ 0x00#8⟩) :
    RowComplete ⟨p, (0xF#4 ++ 0x0#4) ++ 0x00#8, (a ++ 0x0#4) ++ 0x00#8⟩ := by
  intro op h
  exact ⟨f (opX op) (opNN op), (hword _ _).trans (layout_xnn (fields_of_selects_x h).1), hrow _ _⟩

theorem rowComplete_x {p : String} {a : BitVec 4} {nn : Byte} {f : Reg → Instr}
    (hword : ∀ x, encode (f x) = (a ++ x) ++ nn)
    (hrow : ∀ x, (f x).row = ⟨p, (0xF#4 ++ 0x0#4) ++ 0xFF#8, (a ++ 0x0#4) ++ nn⟩) :
    RowComplete ⟨p, (0xF#4 ++ 0x0#4) ++ 0xFF#8, (a ++ 0x0#4) ++ nn⟩ := by
  intro op h
  obtain ⟨ha, hnn⟩ := fields_of_selects_x h
  rw [show opNN op &&& 0xFF#8 = opNN op from BitVec.and_allOnes] at hnn
  exact ⟨f (opX op), (hword _).trans (layout_x ha hnn), hrow _⟩

/-- What a mask over N says of it. -/
theorem opN_of_selects_xy {p : String} {a n : BitVec 4} {op : Word}
    (h : OpRow.selects ⟨p, (0xF#4 ++ 0x0#4) ++ (0x0#4 ++ 0xF#4), (a ++ 0x0#4) ++ (0x0#4 ++ n)⟩ op = true) :
    opN op = n := by
  have hmask : op &&& ((0xF#4 ++ 0x0#4) ++ (0x0#4 ++ 0xF#4)) = (a ++ 0x0#4) ++ (0x0#4 ++ n) := beq_iff_eq.1 h
  rw [← word_of_xyn op, and_layout_xnn, BitVec.and_append, show opN op &&& 0xF#4 = opN op from BitVec.and_allOnes]
    at hmask
  simpa only [opN_xyn] using congrArg opN hmask

theorem rowComplete_xy {p : String} {a n : BitVec 4} {f : Reg → Reg → Instr}
    (hword : ∀ x y, encode (f x y) = (a ++ x) ++ (y ++ n))
    (hrow : ∀ x y, (f x y).row = ⟨p, (0xF#4 ++ 0x0#4) ++ (0x0#4 ++ 0xF#4), (a ++ 0x0#4) ++ (0x0#4 ++ n)⟩) :
    RowComplete ⟨p, (0xF#4 ++ 0x0#4) ++ (0x0#4 ++ 0xF#4), (a ++ 0x0#4) ++ (0x0#4 ++ n)⟩ := by
  intro op h
  obtain ⟨ha, -⟩ := fields_of_selects_x h
  exact ⟨f (opX op) (opY op), (hword _ _).trans (layout_xy ha (opN_of_selects_xy h)), hrow _ _⟩

/-- A row that fixes the whole word selects one instruction. -/
theorem rowComplete_word {p : String} (i : Instr) (hrow : i.row = ⟨p, 0xFFFF, encode i⟩) :
    RowComplete ⟨p, 0xFFFF, encode i⟩ := by
  intro op h
  have hmask : op &&& 0xFFFF#16 = encode i := beq_iff_eq.1 h
  exact ⟨i, hmask.symm.trans BitVec.and_allOnes, hrow⟩

/-- DXYN fixes the leading nibble; the other three are its operands. -/
theorem rowComplete_drw : RowComplete ⟨"DXYN", 0xF000, 0xD000⟩ := by
  intro op h
  obtain ⟨ha, -⟩ := fields_of_selects_x (a := 0xD#4) (m := 0x00#8) (nn := 0x00#8) h
  exact ⟨.drw (opX op) (opY op) (opN op), layout_xy ha rfl, rfl⟩

theorem rowComplete_rowsFlow : ∀ r ∈ rowsFlow, RowComplete r := by
  simp only [rowsFlow, List.forall_mem_cons]
  exact ⟨rowComplete_word .cls rfl, rowComplete_word .ret rfl,
    rowComplete_nnn (f := .jp) (fun _ => rfl) fun _ => rfl,
    rowComplete_nnn (f := .call) (fun _ => rfl) fun _ => rfl,
    rowComplete_xnn (f := .seByte) (fun _ _ => rfl) fun _ _ => rfl,
    rowComplete_xnn (f := .sneByte) (fun _ _ => rfl) fun _ _ => rfl,
    rowComplete_xy (f := .seReg) (fun _ _ => rfl) fun _ _ => rfl,
    rowComplete_xnn (f := .ldByte) (fun _ _ => rfl) fun _ _ => rfl,
    rowComplete_xnn (f := .addByte) (fun _ _ => rfl) fun _ _ => rfl,
    List.forall_mem_nil _⟩

theorem rowComplete_rowsAlu : ∀ r ∈ rowsAlu, RowComplete r := by
  simp only [rowsAlu, List.forall_mem_cons]
  exact ⟨rowComplete_xy (f := .ldReg) (fun _ _ => rfl) fun _ _ => rfl,
    rowComplete_xy (f := .orReg) (fun _ _ => rfl) fun _ _ => rfl,
    rowComplete_xy (f := .andReg) (fun _ _ => rfl) fun _ _ => rfl,
    rowComplete_xy (f := .xorReg) (fun _ _ => rfl) fun _ _ => rfl,
    rowComplete_xy (f := .addReg) (fun _ _ => rfl) fun _ _ => rfl,
    rowComplete_xy (f := .subReg) (fun _ _ => rfl) fun _ _ => rfl,
    rowComplete_xy (f := .shr) (fun _ _ => rfl) fun _ _ => rfl,
    rowComplete_xy (f := .subnReg) (fun _ _ => rfl) fun _ _ => rfl,
    rowComplete_xy (f := .shl) (fun _ _ => rfl) fun _ _ => rfl,
    rowComplete_xy (f := .sneReg) (fun _ _ => rfl) fun _ _ => rfl,
    List.forall_mem_nil _⟩

theorem rowComplete_rowsIndex : ∀ r ∈ rowsIndex, RowComplete r := by
  simp only [rowsIndex, List.forall_mem_cons]
  exact ⟨rowComplete_nnn (f := .ldI) (fun _ => rfl) fun _ => rfl,
    rowComplete_nnn (f := .jpV0) (fun _ => rfl) fun _ => rfl,
    rowComplete_xnn (f := .rnd) (fun _ _ => rfl) fun _ _ => rfl,
    rowComplete_drw,
    rowComplete_x (f := .skp) (fun _ => rfl) fun _ => rfl,
    rowComplete_x (f := .sknp) (fun _ => rfl) fun _ => rfl,
    List.forall_mem_nil _⟩

theorem rowComplete_rowsMisc : ∀ r ∈ rowsMisc, RowComplete r := by
  simp only [rowsMisc, List.forall_mem_cons]
  exact ⟨rowComplete_x (f := .ldVxDt) (fun _ => rfl) fun _ => rfl,
    rowComplete_x (f := .ldVxK) (fun _ => rfl) fun _ => rfl,
    rowComplete_x (f := .ldDtVx) (fun _ => rfl) fun _ => rfl,
    rowComplete_x (f := .ldStVx) (fun _ => rfl) fun _ => rfl,
    rowComplete_x (f := .addI) (fun _ => rfl) fun _ => rfl,
    rowComplete_x (f := .ldF) (fun _ => rfl) fun _ => rfl,
    rowComplete_x (f := .ldB) (fun _ => rfl) fun _ => rfl,
    rowComplete_x (f := .storeRegs) (fun _ => rfl) fun _ => rfl,
    rowComplete_x (f := .loadRegs) (fun _ => rfl) fun _ => rfl,
    List.forall_mem_nil _⟩

/-- The whole opcode map is complete (R62). -/
theorem rowComplete_opcodeTable {r : OpRow} (h : r ∈ opcodeTable) : RowComplete r := by
  simp only [opcodeTable, List.mem_append] at h
  rcases h with ((hflow | halu) | hindex) | hmisc
  · exact rowComplete_rowsFlow r hflow
  · exact rowComplete_rowsAlu r halu
  · exact rowComplete_rowsIndex r hindex
  · exact rowComplete_rowsMisc r hmisc

/-- Settles O3: a selected word is the encoding of an instruction of the row, and an encoding is selected by its row. -/
theorem decodeAgreesWithOpcodeTable : Obligations.DecodeAgreesWithOpcodeTable := by
  refine ⟨?rowDecodes, ?decodedInRow⟩
  case rowDecodes =>
    intro op r hr hsel
    obtain ⟨i, rfl, hrow⟩ := rowComplete_opcodeTable hr op hsel
    exact ⟨i, decode_encode i, hrow⟩
  case decodedInRow =>
    intro op i h
    rw [← encodeOfDecodeIsTheWord op i h]
    exact encode_in_row i

/-- Settles O4: an unselected word decodes to no instruction, whose row would select it, and is refused by name. -/
theorem unmatchedWordIsUnrecognized : Obligations.UnmatchedWordIsUnrecognized := by
  intro op hnone
  have hreads := reads_decode op
  cases hdec : decode op with
  | ok i =>
    obtain ⟨hmem, hsel⟩ := decodeAgreesWithOpcodeTable.2 op i hdec
    rw [hnone _ hmem] at hsel
    cases hsel
  | error e =>
    rw [hdec] at hreads
    exact congrArg Except.error hreads

/-! ## The numbers of the words -/

theorem toNat_nnn (a : BitVec 4) (nnn : Addr) :
    BitVec.toNat (w := 16) (a ++ nnn) = 0x1000 * a.toNat + nnn.toNat := by
  have hdisjoint : a.toNat <<< 12 ||| nnn.toNat = a.toNat <<< 12 + nnn.toNat :=
    (Nat.shiftLeft_add_eq_or_of_lt nnn.isLt a.toNat).symm
  calc BitVec.toNat (w := 16) (a ++ nnn)
      = a.toNat <<< 12 ||| nnn.toNat := BitVec.toNat_append a nnn
    _ = 0x1000 * a.toNat + nnn.toNat := by rw [hdisjoint, Nat.shiftLeft_eq]; omega

theorem toNat_nibble_append (a x : BitVec 4) : BitVec.toNat (w := 8) (a ++ x) = 0x10 * a.toNat + x.toNat := by
  have hdisjoint : a.toNat <<< 4 ||| x.toNat = a.toNat <<< 4 + x.toNat :=
    (Nat.shiftLeft_add_eq_or_of_lt x.isLt a.toNat).symm
  calc BitVec.toNat (w := 8) (a ++ x)
      = a.toNat <<< 4 ||| x.toNat := BitVec.toNat_append a x
    _ = 0x10 * a.toNat + x.toNat := by rw [hdisjoint, Nat.shiftLeft_eq]; omega

theorem toNat_xnn (a x : BitVec 4) (nn : Byte) :
    BitVec.toNat (w := 16) ((a ++ x) ++ nn) = 0x1000 * a.toNat + 0x100 * x.toNat + nn.toNat := by
  have h : BitVec.toNat (w := 16) ((a ++ x) ++ nn) = _ := Machine.toNat_byte_append (a ++ x) nn
  rw [h, toNat_nibble_append]
  omega

theorem toNat_xyn (a x y n : BitVec 4) :
    BitVec.toNat (w := 16) ((a ++ x) ++ (y ++ n)) = 0x1000 * a.toNat + 0x100 * x.toNat + 0x10 * y.toNat + n.toNat := by
  have h : BitVec.toNat (w := 16) ((a ++ x) ++ (y ++ n)) = _ := toNat_xnn a x (y ++ n)
  rw [h, toNat_nibble_append]
  omega

theorem toNat_layout_xy {w : Nat} (a x y n : BitVec 4) (h : 0x1000 * a.toNat + n.toNat = w) :
    BitVec.toNat (w := 16) ((a ++ x) ++ (y ++ n)) = w + 0x100 * x.toNat + 0x10 * y.toNat := by
  rw [toNat_xyn]
  omega

theorem toNat_layout_x {w : Nat} (a x : BitVec 4) (nn : Byte) (h : 0x1000 * a.toNat + nn.toNat = w) :
    BitVec.toNat (w := 16) ((a ++ x) ++ nn) = w + 0x100 * x.toNat := by
  rw [toNat_xnn]
  omega

/-- Settles O5: the number of each layout, at the fixed nibbles of the 34 instructions. -/
theorem encodingsFieldByField : Obligations.EncodingsFieldByField := by
  intro x y n nn nnn
  exact ⟨rfl, rfl, toNat_nnn _ nnn, toNat_nnn _ nnn, toNat_xnn _ x nn, toNat_xnn _ x nn, toNat_layout_xy _ x y _ rfl,
    toNat_xnn _ x nn, toNat_xnn _ x nn, toNat_layout_xy _ x y _ rfl, toNat_layout_xy _ x y _ rfl,
    toNat_layout_xy _ x y _ rfl, toNat_layout_xy _ x y _ rfl, toNat_layout_xy _ x y _ rfl,
    toNat_layout_xy _ x y _ rfl, toNat_layout_xy _ x y _ rfl, toNat_layout_xy _ x y _ rfl,
    toNat_layout_xy _ x y _ rfl, toNat_layout_xy _ x y _ rfl, toNat_nnn _ nnn, toNat_nnn _ nnn, toNat_xnn _ x nn,
    toNat_xyn _ x y n, toNat_layout_x _ x _ rfl, toNat_layout_x _ x _ rfl, toNat_layout_x _ x _ rfl,
    toNat_layout_x _ x _ rfl, toNat_layout_x _ x _ rfl, toNat_layout_x _ x _ rfl, toNat_layout_x _ x _ rfl,
    toNat_layout_x _ x _ rfl, toNat_layout_x _ x _ rfl, toNat_layout_x _ x _ rfl, toNat_layout_x _ x _ rfl⟩

/-- Settles O6: by evaluation of the decision procedure at the nine words. -/
theorem sampleWordsDecode : Obligations.SampleWordsDecode :=
  ⟨rfl, rfl, rfl, rfl, rfl, rfl, rfl, rfl, rfl⟩

end Sys2Proof
end

section
/-!
PROOFS. What each instruction can do, said once (10_state.md R27, R28; 60_exceptions.md R158): it waits for a key, or it
raises one fatal condition, or it completes with its effect and its new PC.
-/

namespace Sys2Proof.Machine

open Sys2Proof.Claims Host

/-! ## The effect of an instruction and the condition it raises -/

/-- What an instruction that completes writes, PC apart (the rows of 40_display.md to 44_keypad_timers.md). -/
def effect (i : Instr) (s : State) : State :=
  match i with
  | .cls => clearScreen s
  | .ret => s.pop
  | .call _ => s.push s.pc
  | .jp _ | .jpV0 _ | .seByte _ _ | .sneByte _ _ | .seReg _ _ | .sneReg _ _ | .skp _ | .sknp _ => s
  | .ldByte x nn => s.setV x nn
  | .addByte x nn => s.setV x (s.getV x + nn)
  | .ldReg x y => s.setV x (s.getV y)
  | .orReg x y => s.setV x (s.getV x ||| s.getV y)
  | .andReg x y => s.setV x (s.getV x &&& s.getV y)
  | .xorReg x y => s.setV x (s.getV x ^^^ s.getV y)
  | .addReg x y => s.setResultFlag x (s.getV x + s.getV y) (carryFlag (s.getV x) (s.getV y))
  | .subReg x y => s.setResultFlag x (s.getV x - s.getV y) (noBorrowFlag (s.getV x) (s.getV y))
  | .shr x _ => s.setResultFlag x (s.getV x >>> 1) (shrFlag (s.getV x))
  | .subnReg x y => s.setResultFlag x (s.getV y - s.getV x) (noBorrowFlag (s.getV y) (s.getV x))
  | .shl x _ => s.setResultFlag x (s.getV x <<< 1) (shlFlag (s.getV x))
  | .rnd x nn => (s.setV x (s.randomByte &&& nn)).drawRandom
  | .drw x y n => drawEffect s x y (memGetN s.mem s.i.toNat n.toNat)
  | .ldVxDt x => s.setV x s.dt
  | .ldVxK x => (s.setV x (BitVec.ofNat 8 s.reportedKey)).drawKey
  | .ldDtVx x => s.setDt (s.getV x)
  | .ldStVx x => s.setSt (s.getV x)
  | .ldI nnn => s.setI (nnn.setWidth 16)
  | .addI x => s.setI (indexSum s.i (s.getV x))
  | .ldF x => s.setI (glyphAddress (s.getV x))
  | .ldB x => s.setMem (memSetN s.mem s.i.toNat (decimalDigits (s.getV x)))
  | .storeRegs x => s.setMem (memSetN s.mem s.i.toNat (s.regsUpTo x))
  | .loadRegs x => s.setRegs (memGetN s.mem s.i.toNat (x.toNat + 1))

/-- The fatal condition of an instruction in any state. CALL tests SP for 16 or more, of which `fatalOf` tells the 16
that is reached (log 11). -/
def raised (i : Instr) (s : State) : Option Cause :=
  match i with
  | .call _ => if 16 ≤ s.sp then some .stackOverflow else fatalOf i s
  | _ => fatalOf i s

theorem raised_eq_fatalOf (i : Instr) {s : State} (h : s.sp ≤ 16) : raised i s = fatalOf i s := by
  cases i with
  | call nnn =>
    simp only [raised]
    split
    · have h16 : s.sp = 16 := by omega
      simp [fatalOf, stackFatal, h16]
    · rfl
  | _ => rfl

theorem fatalOf_of_stackFatal {i : Instr} {s : State} {c : Cause} (h : stackFatal i s = some c) :
    fatalOf i s = some c := by
  simp [fatalOf, h]

theorem fatalOf_of_operand {i : Instr} {s : State} (hstack : stackFatal i s = none)
    (hoperand : operandOutOfRange i s = true) : fatalOf i s = some .outOfRangeAccess := by
  simp [fatalOf, hstack, hoperand]

theorem fatalOf_of_pc {i : Instr} {s : State} (hstack : stackFatal i s = none) (hpc : 0xFFE < newPc i s) :
    fatalOf i s = some .outOfRangeAccess := by
  simp [fatalOf, hstack, hpc]

theorem fatalOf_eq_none_iff (i : Instr) (s : State) :
    fatalOf i s = none ↔ stackFatal i s = none ∧ operandOutOfRange i s = false ∧ newPc i s ≤ 0xFFE := by
  cases hstack : stackFatal i s <;> simp [fatalOf, hstack]

/-- An instruction never raises the condition of the decoder (60_exceptions.md R153, R158). -/
theorem raised_ne_unrecognizedOpcode {i : Instr} {s : State} {c : Cause} (h : raised i s = some c) :
    c ≠ .unrecognizedOpcode := by
  rintro rfl
  have hstack : stackFatal i s ≠ some .unrecognizedOpcode := by
    cases i <;> simp [stackFatal]
  have hfatal : fatalOf i s ≠ some .unrecognizedOpcode := by
    simp only [fatalOf]
    split <;> simp_all
  cases i with
  | call nnn =>
    simp only [raised] at h
    split at h
    · cases h
    · exact hfatal h
  | _ => exact hfatal h

/-! ## The three things an instruction can do -/

/-- The instruction waits for a key, or raises a fatal condition, or completes. -/
def ExecSplit (i : Instr) (s : State) : Prop :=
  (blocked i s = true ∧ exec i s = .next s) ∨
  (blocked i s = false ∧ ∃ c, raised i s = some c ∧ exec i s = .next (fatalEntry c s)) ∨
  (blocked i s = false ∧ raised i s = none ∧
    exec i s = .next ((effect i s).setPc (BitVec.ofNat 16 (newPc i s))))

/-- The last check of an instruction, once the stack and the operands have passed: its new PC (R158). -/
theorem execSplit_of_completeAt {i : Instr} {s : State} (hexec : exec i s = completeAt s (effect i s) (newPc i s))
    (hblocked : blocked i s = false) (hraised : raised i s = fatalOf i s) (hstack : stackFatal i s = none)
    (hoperand : operandOutOfRange i s = false) : ExecSplit i s := by
  rcases completeAt_cases s (effect i s) (newPc i s) with ⟨hpc, hdone⟩ | ⟨hpc, hfatal⟩
  · refine .inr (.inr ⟨hblocked, ?_, hexec.trans hdone⟩)
    rw [hraised, fatalOf_eq_none_iff]
    exact ⟨hstack, hoperand, hpc⟩
  · exact .inr (.inl ⟨hblocked, _, hraised.trans (fatalOf_of_pc hstack hpc), hexec.trans hfatal⟩)

/-- An instruction with an operand check (60_exceptions.md R154): it goes on to the check of its new PC, or raises. -/
theorem execSplit_of_check {i : Instr} {s : State} (hblocked : blocked i s = false) (hraised : raised i s = fatalOf i s)
    (hstack : stackFatal i s = none)
    (hcheck : (operandOutOfRange i s = false ∧ exec i s = completeAt s (effect i s) (newPc i s)) ∨
      (operandOutOfRange i s = true ∧ exec i s = .next (fatalEntry .outOfRangeAccess s))) : ExecSplit i s := by
  rcases hcheck with ⟨hoperand, hexec⟩ | ⟨hoperand, hexec⟩
  · exact execSplit_of_completeAt hexec hblocked hraised hstack hoperand
  · exact .inr (.inl ⟨hblocked, _, hraised.trans (fatalOf_of_operand hstack hoperand), hexec⟩)

theorem execSplit_ret (s : State) : ExecSplit .ret s := by
  cases htop : s.stack.getLast? with
  | none =>
    have hsp : s.sp = 0 := by simpa [State.sp] using htop
    refine .inr (.inl ⟨rfl, .stackUnderflow, fatalOf_of_stackFatal ?_, ?_⟩)
    · simp [stackFatal, hsp]
    · simp [exec, execRet, State.top, htop, raiseFatal]
  | some w =>
    have hsp : s.sp ≠ 0 := by
      intro h
      simp [List.length_eq_zero_iff.1 h] at htop
    refine execSplit_of_completeAt ?_ rfl rfl ?_ rfl
    · simp [exec, execRet, State.top, htop, effect, newPc]
    · simp [stackFatal, hsp]

theorem execSplit_call (nnn : Addr) (s : State) : ExecSplit (.call nnn) s := by
  by_cases hfull : 16 ≤ s.sp
  · refine .inr (.inl ⟨rfl, .stackOverflow, ?_, ?_⟩)
    · simp [raised, hfull]
    · simp [exec, execCall, Config.stackDepth, hfull, raiseFatal]
  · refine execSplit_of_completeAt ?_ rfl ?_ ?_ rfl
    · simp [exec, execCall, Config.stackDepth, hfull, effect, newPc]
    · simp [raised, hfull]
    · simp [stackFatal]; omega

theorem execSplit_ldB (x : Reg) (s : State) : ExecSplit (.ldB x) s := by
  have hlength : (decimalDigits (s.getV x)).length = 3 := rfl
  refine execSplit_of_check rfl rfl rfl ?_
  rcases writeAtI_cases s (decimalDigits (s.getV x)) with ⟨hrange, hwrite⟩ | ⟨-, hrange, hwrite⟩
  · exact .inl ⟨decide_eq_false (by omega), by simp only [exec, execLdB, hwrite]; rfl⟩
  · exact .inr ⟨decide_eq_true (by omega), by simp only [exec, execLdB, hwrite]; rfl⟩

theorem execSplit_storeRegs (x : Reg) (s : State) : ExecSplit (.storeRegs x) s := by
  have hlength : (s.regsUpTo x).length = x.toNat + 1 := s.regsUpTo_length x
  refine execSplit_of_check rfl rfl rfl ?_
  rcases writeAtI_cases s (s.regsUpTo x) with ⟨hrange, hwrite⟩ | ⟨-, hrange, hwrite⟩
  · exact .inl ⟨decide_eq_false (by omega), by simp only [exec, execStoreRegs, hwrite]; rfl⟩
  · exact .inr ⟨decide_eq_true (by omega), by simp only [exec, execStoreRegs, hwrite]; rfl⟩

theorem execSplit_loadRegs (x : Reg) (s : State) : ExecSplit (.loadRegs x) s := by
  refine execSplit_of_check rfl rfl rfl ?_
  rcases memReadN_cases s.mem s.i.toNat (x.toNat + 1) with ⟨hrange, hread⟩ | ⟨-, hrange, hread⟩
  · exact .inl ⟨decide_eq_false (by omega), by simp only [exec, execLoadRegs, readAtI, hread]; rfl⟩
  · exact .inr ⟨decide_eq_true (by omega), by simp only [exec, execLoadRegs, readAtI, hread]; rfl⟩

theorem execSplit_drw (x y : Reg) (n : Nibble) (s : State) : ExecSplit (.drw x y n) s := by
  refine execSplit_of_check rfl rfl rfl ?_
  rcases memReadN_cases s.mem s.i.toNat n.toNat with ⟨hrange, hread⟩ | ⟨hne, hrange, hread⟩
  · exact .inl ⟨decide_eq_false (by omega), by simp only [exec, execDrw, readAtI, hread]; rfl⟩
  · exact .inr ⟨decide_eq_true (by omega), by simp only [exec, execDrw, readAtI, hread]; rfl⟩

theorem execSplit_skp (x : Reg) (s : State) : ExecSplit (.skp x) s := by
  refine execSplit_of_check rfl rfl rfl ?_
  rcases keyOperand_cases s x with ⟨hindex, hkey⟩ | ⟨hindex, hkey⟩
  · exact .inl ⟨decide_eq_false (by omega), by simp only [exec, execSkp, hkey]; rfl⟩
  · exact .inr ⟨decide_eq_true hindex, by simp only [exec, execSkp, hkey]; rfl⟩

theorem execSplit_sknp (x : Reg) (s : State) : ExecSplit (.sknp x) s := by
  refine execSplit_of_check rfl rfl rfl ?_
  rcases keyOperand_cases s x with ⟨hindex, hkey⟩ | ⟨hindex, hkey⟩
  · refine .inl ⟨decide_eq_false (by omega), ?_⟩
    cases hdown : s.keys.getLsbD (s.getV x).toNat <;> simp [exec, execSknp, hkey, skipIf, effect, newPc, hdown]
  · exact .inr ⟨decide_eq_true hindex, by simp only [exec, execSknp, hkey]; rfl⟩

theorem execSplit_ldVxK (x : Reg) (s : State) : ExecSplit (.ldVxK x) s := by
  by_cases hkeys : s.keys = 0
  · exact .inl ⟨by simp [hkeys], exec_ldVxK_of_no_key x hkeys⟩
  · have hpc : newPc (.ldVxK x) s = s.pc.toNat + 2 := if_neg hkeys
    refine execSplit_of_completeAt ?_ (beq_eq_false_iff_ne.2 hkeys) rfl rfl rfl
    rw [hpc]
    exact if_neg hkeys

/-- Every instruction in every state does one of the three. -/
theorem exec_split (i : Instr) (s : State) : ExecSplit i s := by
  cases i with
  | ret => exact execSplit_ret s
  | call nnn => exact execSplit_call nnn s
  | seByte x nn | sneByte x nn | seReg x y | sneReg x y =>
    refine execSplit_of_completeAt ?_ rfl rfl rfl rfl
    simp [exec, execSeByte, execSneByte, execSeReg, execSneReg, skipIf, effect, newPc]
  | drw x y n => exact execSplit_drw x y n s
  | skp x => exact execSplit_skp x s
  | sknp x => exact execSplit_sknp x s
  | ldVxK x => exact execSplit_ldVxK x s
  | ldB x => exact execSplit_ldB x s
  | storeRegs x => exact execSplit_storeRegs x s
  | loadRegs x => exact execSplit_loadRegs x s
  | _ => exact execSplit_of_completeAt rfl rfl rfl rfl rfl

/-! ## The rule of each outcome -/

theorem exec_of_blocked {i : Instr} {s : State} (h : blocked i s = true) : exec i s = .next s := by
  rcases exec_split i s with ⟨-, hexec⟩ | ⟨hb, -⟩ | ⟨hb, -⟩
  · exact hexec
  all_goals simp [h] at hb

theorem exec_of_raised {i : Instr} {s : State} {c : Cause} (hblocked : blocked i s = false)
    (h : raised i s = some c) : exec i s = .next (fatalEntry c s) := by
  rcases exec_split i s with ⟨hb, -⟩ | ⟨-, c', hc, hexec⟩ | ⟨-, hnone, -⟩
  · simp [hb] at hblocked
  · cases hc.symm.trans h
    exact hexec
  · simp [hnone] at h

theorem exec_of_completes {i : Instr} {s : State} (hblocked : blocked i s = false) (h : raised i s = none) :
    exec i s = .next ((effect i s).setPc (BitVec.ofNat 16 (newPc i s))) := by
  rcases exec_split i s with ⟨hb, -⟩ | ⟨-, c, hc, -⟩ | ⟨-, -, hexec⟩
  · simp [hb] at hblocked
  · simp [h] at hc
  · exact hexec

/-- An operand or an address out of its range is fatal (60_exceptions.md R154). -/
theorem exec_of_operand {i : Instr} {s : State} (hblocked : blocked i s = false) (hraised : raised i s = fatalOf i s)
    (hstack : stackFatal i s = none) (hoperand : operandOutOfRange i s = true) :
    exec i s = .next (fatalEntry .outOfRangeAccess s) :=
  exec_of_raised hblocked (hraised.trans (fatalOf_of_operand hstack hoperand))

/-- An instruction whose PC rule is PC + 2 and whose other checks pass raises nothing wherever PC + 2 is in range. -/
theorem raised_eq_none_of_sequential {i : Instr} {s : State} (hraised : raised i s = fatalOf i s)
    (hstack : stackFatal i s = none) (hoperand : operandOutOfRange i s = false) (hnew : newPc i s = s.pc.toNat + 2)
    (hpc : s.pc.toNat + 2 ≤ 0xFFE) : raised i s = none := by
  rw [hraised, fatalOf_eq_none_iff]
  exact ⟨hstack, hoperand, hnew.trans_le hpc⟩

/-- Such an instruction completes with its effect (10_state.md R27). -/
theorem exec_of_sequential {i : Instr} {s : State} (hblocked : blocked i s = false) (hraised : raised i s = fatalOf i s)
    (hstack : stackFatal i s = none) (hoperand : operandOutOfRange i s = false) (hnew : newPc i s = s.pc.toNat + 2)
    (hpc : s.pc.toNat + 2 ≤ 0xFFE) :
    exec i s = .next ((effect i s).setPc (BitVec.ofNat 16 (s.pc.toNat + 2))) :=
  hnew ▸ exec_of_completes hblocked (raised_eq_none_of_sequential hraised hstack hoperand hnew hpc)

/-- Every instruction has a next state (60_exceptions.md R156; log 1). -/
theorem exec_next (i : Instr) (s : State) : ∃ t, exec i s = .next t := by
  rcases exec_split i s with ⟨-, hexec⟩ | ⟨-, c, -, hexec⟩ | ⟨-, -, hexec⟩
  all_goals exact ⟨_, hexec⟩

/-- An instruction leaves the state it began in, when it waits, or that state halted, or its effect at some PC. -/
theorem exec_cases {i : Instr} {s t : State} (h : exec i s = .next t) :
    (blocked i s = true ∧ t = s) ∨ (∃ c, t = fatalEntry c s) ∨ ∃ pc, t = (effect i s).setPc pc := by
  rcases exec_split i s with ⟨hblocked, hexec⟩ | ⟨-, c, -, hexec⟩ | ⟨-, -, hexec⟩
  all_goals cases hexec.symm.trans h
  · exact .inl ⟨hblocked, rfl⟩
  · exact .inr (.inl ⟨c, rfl⟩)
  · exact .inr (.inr ⟨_, rfl⟩)

/-! ## What an effect leaves unchanged -/

@[simp] theorem effect_keys (i : Instr) (s : State) : (effect i s).keys = s.keys := by cases i <;> rfl

@[simp] theorem effect_ir (i : Instr) (s : State) : (effect i s).ir = s.ir := by cases i <;> rfl

@[simp] theorem effect_fatal (i : Instr) (s : State) : (effect i s).fatal = s.fatal := by cases i <;> rfl

/-- Memory is written by FX33 and FX55 alone (10_state.md section 1). -/
theorem effect_mem (i : Instr) (s : State) :
    (effect i s).mem = s.mem ∨ (∃ x, i = .ldB x) ∨ ∃ x, i = .storeRegs x := by
  cases i with
  | ldB x => exact .inr (.inl ⟨x, rfl⟩)
  | storeRegs x => exact .inr (.inr ⟨x, rfl⟩)
  | _ => exact .inl rfl

/-- The grid and `dirty` are written by 00E0 and DXYN alone. -/
theorem effect_fb_dirty (i : Instr) (s : State) :
    ((effect i s).fb = s.fb ∧ (effect i s).dirty = s.dirty) ∨ i = .cls ∨ ∃ x y n, i = .drw x y n := by
  cases i with
  | cls => exact .inr (.inl rfl)
  | drw x y n => exact .inr (.inr ⟨x, y, n, rfl⟩)
  | _ => exact .inl ⟨rfl, rfl⟩

/-- The stack is written by 00EE and 2NNN alone. -/
theorem effect_stack (i : Instr) (s : State) :
    (effect i s).stack = s.stack ∨ i = .ret ∨ ∃ nnn, i = .call nnn := by
  cases i with
  | ret => exact .inr (.inl rfl)
  | call nnn => exact .inr (.inr ⟨nnn, rfl⟩)
  | _ => exact .inl rfl

/-- I is written by ANNN, FX1E and FX29 alone. -/
theorem effect_i (i : Instr) (s : State) :
    (effect i s).i = s.i ∨ (∃ nnn, i = .ldI nnn) ∨ (∃ x, i = .addI x) ∨ ∃ x, i = .ldF x := by
  cases i with
  | ldI nnn => exact .inr (.inl ⟨nnn, rfl⟩)
  | addI x => exact .inr (.inr (.inl ⟨x, rfl⟩))
  | ldF x => exact .inr (.inr (.inr ⟨x, rfl⟩))
  | _ => exact .inl rfl

theorem effect_dt (i : Instr) (s : State) : (effect i s).dt = s.dt ∨ ∃ x, i = .ldDtVx x := by
  cases i with
  | ldDtVx x => exact .inr ⟨x, rfl⟩
  | _ => exact .inl rfl

theorem effect_st (i : Instr) (s : State) : (effect i s).st = s.st ∨ ∃ x, i = .ldStVx x := by
  cases i with
  | ldStVx x => exact .inr ⟨x, rfl⟩
  | _ => exact .inl rfl

/-- One random byte is consumed by CXNN, none by any other instruction (10_state.md R30). -/
theorem effect_rndIndex (i : Instr) (s : State) :
    (effect i s).rndIndex = s.rndIndex ∨ ∃ x nn, i = .rnd x nn := by
  cases i with
  | rnd x nn => exact .inr ⟨x, nn, rfl⟩
  | _ => exact .inl rfl

/-! ## Every instruction's condition and PC -/

/-- An instruction that waits raises nothing, and its PC stays (10_state.md R28). -/
theorem newPc_of_blocked {i : Instr} {s : State} (h : blocked i s = true) : newPc i s = s.pc.toNat := by
  cases i with
  | ldVxK x => exact if_pos (beq_iff_eq.1 h)
  | _ => cases h

theorem fatalOf_of_blocked {i : Instr} {s : State} (h : blocked i s = true) (hpc : s.pc.toNat ≤ 0xFFE) :
    fatalOf i s = none := by
  have hnew := newPc_of_blocked h
  cases i with
  | ldVxK x => exact (fatalOf_eq_none_iff _ _).2 ⟨rfl, rfl, by omega⟩
  | _ => cases h

/-- Settles O41: with at most 16 entries the condition raised is `fatalOf`, and a completing instruction keeps the fatal
status and takes its new PC. -/
theorem everyInstructionsPcAndFatalCondition : Obligations.EveryInstructionsPcAndFatalCondition := by
  intro i s hpc hsp hrun
  have hraised := raised_eq_fatalOf i hsp
  cases hblocked : blocked i s with
  | true =>
    rw [fatalOf_of_blocked hblocked hpc]
    refine ⟨fun _ hc => (nomatch hc), fun _ => ⟨s, exec_of_blocked hblocked, hrun, ?_⟩⟩
    exact (newPc_of_blocked hblocked).symm
  | false =>
    refine ⟨fun c hc => exec_of_raised hblocked (hraised.trans hc), fun hnone => ?_⟩
    obtain ⟨-, -, hnew⟩ := (fatalOf_eq_none_iff i s).1 hnone
    exact ⟨_, exec_of_completes hblocked (hraised.trans hnone), (effect_fatal i s).trans hrun, setPc_toNat hnew⟩

/-! ## Who writes what -/

/-- Settles O52: a state an instruction leaves differs from the one it began in by the effect alone, and each piece of
an effect has its writers. -/
theorem eachStorageHasItsWriters : Obligations.EachStorageHasItsWriters := by
  intro i s t hexec
  rcases exec_cases hexec with ⟨-, rfl⟩ | ⟨c, rfl⟩ | ⟨pc, rfl⟩
  · simp
  · simp
  · refine ⟨(effect_mem i s).resolve_left, fun hne => ?_, fun hdirty => ?_, (effect_stack i s).resolve_left,
      (effect_i i s).resolve_left, (effect_dt i s).resolve_left, (effect_st i s).resolve_left⟩
    · exact (effect_fb_dirty i s).resolve_left fun ⟨hfb, hd⟩ => hne.elim (· hfb) (· hd)
    · rcases effect_fb_dirty i s with ⟨-, hd⟩ | rfl | ⟨x, y, n, rfl⟩
      · exact hd.trans hdirty
      · rfl
      · rfl

end Sys2Proof.Machine
end

section
/-!
PROOFS. The cycle around the instruction (10_state.md R26 to R29), and that every cycle and every host operation keeps
the machine's invariant.
-/

namespace Sys2Proof.Machine

open Sys2Proof.Claims Host

/-! ## What one cycle does -/

theorem halted_eq_false_iff (s : State) : s.halted = false ↔ s.fatal = none := 
  Option.isSome_eq_false_iff.trans Option.isNone_iff_eq_none

/-- A halted machine stands still (10_state.md R29). -/
theorem step_of_halted {s : State} (h : s.halted = true) : step s = .next s := if_pos h

/-- The cycle of a word that decodes to nothing (30_encoding.md R65). -/
theorem step_of_unrecognized {s : State} {e : DecodeError} (hrun : s.halted = false) (hpc : s.pc.toNat ≤ 0xFFE)
    (hdec : decode (wordAtPc s) = .error e) :
    step s = .next (fatalEntry .unrecognizedOpcode (s.setIr (wordAtPc s))) := by
  simp [step, cycle, hrun, fetch_eq_wordAtPc hpc, hdec, raiseFatal]

/-- A cycle whose instruction raised a fatal condition ends without a tick (60_exceptions.md R156). -/
theorem endCycle_of_halted (i : Instr) (s : State) {s' : State} (h : s'.halted = true) : endCycle i s s' = s' := by
  simp [endCycle, h]

/-- A cycle that completed its instruction ends with the tick (60_exceptions.md R162). -/
theorem endCycle_of_completed {i : Instr} {s s' : State} (hblocked : blocked i s = false) (hrun : s'.halted = false) :
    endCycle i s s' = tickTimers s' := by
  simp [endCycle, hblocked, hrun]

/-- IR takes no part in an instruction's condition and new PC. -/
@[simp] theorem raised_setIr (i : Instr) (s : State) (w : Word) : raised i (s.setIr w) = raised i s := by
  cases i <;> rfl

@[simp] theorem newPc_setIr (i : Instr) (s : State) (w : Word) : newPc i (s.setIr w) = newPc i s := by
  cases i <;> rfl

/-- The state that the cycle of a completing instruction ends in: the effect on the machine with IR written, the new PC
and the tick (10_state.md R26). -/
def completed (i : Instr) (s : State) : State :=
  tickTimers ((effect i (s.setIr (wordAtPc s))).setPc (BitVec.ofNat 16 (newPc i s)))

@[simp] theorem completed_fatal (i : Instr) (s : State) : (completed i s).fatal = s.fatal := effect_fatal i _

/-- The cycle of a fetched instruction: it waits, or halts, or completes (10_state.md R26). -/
theorem step_split {s : State} {i : Instr} (h : Fetches s i) :
    (blocked i s = true ∧ step s = .next (s.setIr (wordAtPc s))) ∨
    (blocked i s = false ∧ ∃ c, raised i s = some c ∧ step s = .next (fatalEntry c (s.setIr (wordAtPc s)))) ∨
    (blocked i s = false ∧ raised i s = none ∧ step s = .next (completed i s)) := by
  have hstep := step_of_fetches h
  rcases exec_split i (s.setIr (wordAtPc s)) with
    ⟨hblocked, hexec⟩ | ⟨hblocked, c, hc, hexec⟩ | ⟨hblocked, hnone, hexec⟩
  all_goals rw [hexec, afterExec] at hstep
  · rw [endCycle_of_blocked _ hblocked] at hstep
    exact .inl ⟨hblocked, hstep⟩
  · rw [endCycle_of_halted _ _ (fatalEntry_halted c _)] at hstep
    exact .inr (.inl ⟨hblocked, c, raised_setIr i s _ ▸ hc, hstep⟩)
  · obtain ⟨hrun, -, -⟩ := h
    have hrun' : ((effect i (s.setIr (wordAtPc s))).setPc (BitVec.ofNat 16 (newPc i s))).halted = false := by
      rw [halted_eq_false_iff] at hrun ⊢
      exact (effect_fatal i _).trans hrun
    rw [newPc_setIr, endCycle_of_completed hblocked hrun'] at hstep
    exact .inr (.inr ⟨hblocked, raised_setIr i s _ ▸ hnone, hstep⟩)

theorem step_of_completes {s : State} {i : Instr} (h : Fetches s i) (hblocked : blocked i s = false)
    (hnone : raised i s = none) : step s = .next (completed i s) := by
  rcases step_split h with ⟨hb, -⟩ | ⟨-, c, hc, -⟩ | ⟨-, -, hstep⟩
  · simp [hb] at hblocked
  · simp [hnone] at hc
  · exact hstep

/-- A running machine with PC in range halts on its word or fetches an instruction (10_state.md R26). -/
theorem decodes_or_fetches {s : State} (hrun : s.halted = false) (hpc : s.pc.toNat ≤ 0xFFE) :
    (∃ e, decode (wordAtPc s) = .error e) ∨ ∃ i, Fetches s i := by
  cases hdec : decode (wordAtPc s) with
  | error e => exact .inl ⟨e, rfl⟩
  | ok i => exact .inr ⟨i, hrun, hpc, hdec⟩

/-! ## The invariant: instructions -/

theorem State.Inv.setIr {s : State} (h : s.Inv) (hrun : s.fatal = none) (w : Word) : (s.setIr w).Inv where
  pcRange := h.pcRange
  iRange := h.iRange
  spRange := h.spRange
  entryRange := h.entryRange
  memWf := h.memWf
  diagPc := h.diagPc
  diagOpcode d hd := by simp [hrun] at hd
  diagCause := h.diagCause

/-- The tick writes nothing the invariant speaks of. -/
theorem State.Inv.tickTimers {s : State} (h : s.Inv) : (Machine.tickTimers s).Inv :=
  ⟨h.pcRange, h.iRange, h.spRange, h.entryRange, h.memWf, h.diagPc, h.diagOpcode, h.diagCause⟩

/-- Fatal entry records PC and IR, so it keeps the invariant when its cause agrees with what IR decodes to (R155). -/
theorem State.Inv.fatalEntry {s : State} {c : Cause} (h : s.Inv)
    (hc : c = .unrecognizedOpcode ↔ ∃ e, decode s.ir = .error e) : (Machine.fatalEntry c s).Inv where
  pcRange := h.pcRange
  iRange := h.iRange
  spRange := h.spRange
  entryRange := h.entryRange
  memWf := h.memWf
  diagPc d hd := by cases hd; rfl
  diagOpcode d hd := by cases hd; rfl
  diagCause d hd := by cases hd; exact hc

/-- Without a diagnostic only the ranges and the form of memory are left to show. -/
theorem inv_of_ranges {s : State} (hrun : s.fatal = none) (hpc : s.pc.toNat ≤ 0xFFE) (hi : s.i.toNat ≤ 0xFFF)
    (hsp : s.sp ≤ 16) (hentry : ∀ w ∈ s.stack, w.toNat ≤ 0xFFE) (hmem : s.mem.wf = true) : s.Inv where
  pcRange := hpc
  iRange := hi
  spRange := hsp
  entryRange := hentry
  memWf := hmem
  diagPc d hd := by simp [hrun] at hd
  diagOpcode d hd := by simp [hrun] at hd
  diagCause d hd := by simp [hrun] at hd

/-- What is written to I has 12 bits (10_state.md R12). -/
theorem effect_i_le (i : Instr) {s : State} (h : s.i.toNat ≤ 0xFFF) : (effect i s).i.toNat ≤ 0xFFF := by
  rcases effect_i i s with hsame | ⟨nnn, rfl⟩ | ⟨x, rfl⟩ | ⟨x, rfl⟩
  · rwa [hsame]
  · have := nnn.isLt
    simp [effect]
    omega
  · simp [effect, indexSum]
    omega
  · have hglyph := glyphAddress_toNat (s.getV x)
    simp only [effect, State.setI_i]
    omega

/-- A push happens below 16 entries alone (41_control_flow.md R92). -/
theorem effect_sp_le {i : Instr} {s : State} (h : s.sp ≤ 16) (hstack : stackFatal i s = none) :
    (effect i s).sp ≤ 16 := by
  rcases effect_stack i s with hsame | rfl | ⟨nnn, rfl⟩
  · simpa only [State.sp, hsame] using h
  · simp only [State.sp, effect, State.pop_stack, List.length_dropLast] at h ⊢
    omega
  · have hroom : s.sp ≠ 16 := by simpa [stackFatal] using hstack
    simp only [State.sp, effect, State.push_stack, List.length_append, List.length_singleton] at h hroom ⊢
    omega

/-- What is pushed is PC (41_control_flow.md R92). -/
theorem effect_entry_le (i : Instr) {s : State} (hpc : s.pc.toNat ≤ 0xFFE) (h : ∀ w ∈ s.stack, w.toNat ≤ 0xFFE) :
    ∀ w ∈ (effect i s).stack, w.toNat ≤ 0xFFE := by
  rcases effect_stack i s with hsame | rfl | ⟨nnn, rfl⟩
  · rwa [hsame]
  · exact fun w hw => h w (List.mem_of_mem_dropLast hw)
  · intro w hw
    rcases List.mem_append.1 hw with hold | hnew
    · exact h w hold
    · rwa [List.mem_singleton.1 hnew]

/-- Stores are checked before they are made (43_index_memory.md R132). -/
theorem effect_mem_wf {i : Instr} {s : State} (h : s.mem.wf = true) (hoperand : operandOutOfRange i s = false) :
    (effect i s).mem.wf = true := by
  rcases effect_mem i s with hsame | ⟨x, rfl⟩ | ⟨x, rfl⟩
  · rwa [hsame]
  · have hrange : s.i.toNat + 2 ≤ 0xFFF := by simpa [operandOutOfRange] using hoperand
    refine memSetN_wf _ h ?_
    simp [decimalDigits, Config.memSize]
    omega
  · have hrange : s.i.toNat + x.toNat ≤ 0xFFF := by simpa [operandOutOfRange] using hoperand
    refine memSetN_wf _ h ?_
    simp [Config.memSize]
    omega

/-- A completing instruction keeps the invariant. -/
theorem State.Inv.effect {i : Instr} {s : State} (h : s.Inv) (hrun : s.fatal = none) (hnone : raised i s = none) :
    ((Machine.effect i s).setPc (BitVec.ofNat 16 (newPc i s))).Inv := by
  rw [raised_eq_fatalOf i h.spRange, fatalOf_eq_none_iff] at hnone
  obtain ⟨hstack, hoperand, hpc⟩ := hnone
  have hnewPc := setPc_toNat hpc
  exact inv_of_ranges ((effect_fatal i s).trans hrun) (hnewPc.trans_le hpc) (effect_i_le i h.iRange)
    (effect_sp_le h.spRange hstack) (effect_entry_le i h.pcRange h.entryRange) (effect_mem_wf h.memWf hoperand)

/-! ## The invariant: cycles and schedules -/

/-- The cycle of a fetched instruction keeps the invariant: it writes IR, and then waits, or halts with a cause that is
not the decoder's, or completes and ticks. -/
theorem step_keeps_inv_of_fetches {s t : State} {i : Instr} (h : s.Inv) (hf : Fetches s i) (hstep : step s = .next t) :
    t.Inv := by
  have hsplit := step_split hf
  obtain ⟨hrun, -, hdec⟩ := hf
  rw [halted_eq_false_iff] at hrun
  have hir := h.setIr hrun (wordAtPc s)
  rcases hsplit with ⟨-, hnext⟩ | ⟨-, c, hc, hnext⟩ | ⟨-, hnone, hnext⟩
  all_goals cases hnext.symm.trans hstep
  · exact hir
  · refine hir.fatalEntry ⟨fun hcause => absurd hcause (raised_ne_unrecognizedOpcode hc), fun ⟨e, he⟩ => ?_⟩
    cases hdec.symm.trans he
  · have heffect := hir.effect (i := i) hrun (by rwa [raised_setIr])
    rw [newPc_setIr] at heffect
    exact heffect.tickTimers

/-- Settles O49: a halted machine stands still, a word of no row halts with the decoder's cause, and the cycle of an
instruction keeps the invariant. -/
theorem stepKeepsTheInvariant : Obligations.StepKeepsTheInvariant := by
  intro s t h hstep
  cases hrun : s.halted with
  | true =>
    cases (step_of_halted hrun).symm.trans hstep
    exact h
  | false =>
    rcases decodes_or_fetches hrun h.pcRange with ⟨e, hdec⟩ | ⟨i, hf⟩
    · cases (step_of_unrecognized hrun h.pcRange hdec).symm.trans hstep
      exact (h.setIr ((halted_eq_false_iff s).1 hrun) _).fatalEntry ⟨fun _ => ⟨e, hdec⟩, fun _ => rfl⟩
    · exact step_keeps_inv_of_fetches h hf hstep

/-- Settles O48: the reset values are in the ranges, and there is no diagnostic. -/
theorem resetMeetsTheInvariant : Obligations.ResetMeetsTheInvariant :=
  inv_of_ranges rfl (by decide) (by decide) (by decide) (fun _ hw => (nomatch hw)) reset_mem_wf

/-- A load writes bytes inside memory or nothing (70_reset_and_hazards.md R172, R173). -/
theorem loadProgram_cases (bytes : List Byte) (s : State) :
    (bytes.length ≤ 3584 ∧ loadProgram bytes s = .ok (s.setMem (memSetN s.mem 0x200 bytes))) ∨
    (3584 < bytes.length ∧ loadProgram bytes s = .error .oversized) := by
  unfold loadProgram
  by_cases h : bytes.length > Config.progMax
  · exact .inr ⟨h, if_pos h⟩
  · exact .inl ⟨Nat.le_of_not_lt h, if_neg h⟩

/-- What the event of a load leaves: the loaded machine, or the machine as it was (R173). -/
theorem applyEvent_loadProgram_cases (bytes : List Byte) (s : State) :
    (bytes.length ≤ 3584 ∧
      applyEvent (.loadProgram bytes) s = .next (s.setMem (memSetN s.mem 0x200 bytes))) ∨
    (3584 < bytes.length ∧ applyEvent (.loadProgram bytes) s = .next s) := by
  rcases loadProgram_cases bytes s with ⟨hlen, hload⟩ | ⟨hlen, hload⟩
  · exact .inl ⟨hlen, by simp [applyEvent, hload]⟩
  · exact .inr ⟨hlen, by simp [applyEvent, hload]⟩

/-- Every event keeps the invariant; of the host's operations the load alone writes something it speaks of, and the
reset everything. -/
theorem applyEvent_keeps_inv {e : Event} {s t : State} (h : s.Inv) (hnext : applyEvent e s = .next t) : t.Inv := by
  cases e with
  | cycle => exact stepKeepsTheInvariant s t h hnext
  | setKey k b =>
    cases hnext
    exact ⟨h.pcRange, h.iRange, h.spRange, h.entryRange, h.memWf, h.diagPc, h.diagOpcode, h.diagCause⟩
  | takeDirty =>
    cases hnext
    exact ⟨h.pcRange, h.iRange, h.spRange, h.entryRange, h.memWf, h.diagPc, h.diagOpcode, h.diagCause⟩
  | loadProgram bytes =>
    rcases applyEvent_loadProgram_cases bytes s with ⟨hlen, hload⟩ | ⟨-, hload⟩
    all_goals cases hload.symm.trans hnext
    · have hmem := memSetN_wf (a := 0x200) bytes h.memWf (by simp [Config.memSize]; omega)
      exact ⟨h.pcRange, h.iRange, h.spRange, h.entryRange, hmem, h.diagPc, h.diagOpcode, h.diagCause⟩
    · exact h
  | reset =>
    cases hnext
    have hreset := resetMeetsTheInvariant
    exact ⟨hreset.pcRange, hreset.iRange, hreset.spRange, hreset.entryRange, hreset.memWf, hreset.diagPc,
      hreset.diagOpcode, hreset.diagCause⟩

/-! ## Runs of events -/

/-- Every cycle has a next state. -/
theorem step_next (s : State) : ∃ t, step s = .next t := by
  rcases step_cases s with ⟨-, h⟩ | ⟨-, c, -, h⟩ | ⟨-, op, e, -, -, h⟩ | ⟨-, op, i, -, -, h⟩
  · exact ⟨_, h⟩
  · exact ⟨_, h⟩
  · exact ⟨_, h⟩
  · obtain ⟨t, hexec⟩ := exec_next i (s.setIr op)
    exact ⟨_, by rw [h, hexec, afterExec]⟩

theorem applyEvent_next (e : Event) (s : State) : ∃ t, applyEvent e s = .next t := by
  cases e with
  | cycle => exact step_next s
  | loadProgram bytes =>
    rcases applyEvent_loadProgram_cases bytes s with ⟨-, hload⟩ | ⟨-, hload⟩
    all_goals exact ⟨_, hload⟩
  | _ => exact ⟨_, rfl⟩

theorem runEvents_cons {e : Event} {s s' : State} (es : List Event) (h : applyEvent e s = .next s') :
    runEvents (e :: es) s = runEvents es s' := by
  simp [runEvents, h]

/-- What every event of a schedule keeps, the schedule keeps. -/
theorem runEvents_induction {R : State → Prop} {P : Event → Prop}
    (hstep : ∀ e s t, P e → R s → applyEvent e s = .next t → R t) :
    ∀ (es : List Event) (s t : State), (∀ e ∈ es, P e) → R s → runEvents es s = .next t → R t
  | [], s, t, _, hs, hrun => by cases hrun; exact hs
  | e :: es, s, t, hes, hs, hrun => by
    obtain ⟨s', he⟩ := applyEvent_next e s
    rw [runEvents_cons es he] at hrun
    rw [List.forall_mem_cons] at hes
    exact runEvents_induction hstep es s' t hes.2 (hstep e s s' hes.1 hs he) hrun

/-- Settles O45: by induction on the schedule, each of whose events has a next state. -/
theorem everyScheduleRunsOn : Obligations.EveryScheduleRunsOn := by
  intro es
  induction es with
  | nil => exact fun s => ⟨s, rfl⟩
  | cons e es ih =>
    intro s
    obtain ⟨s', he⟩ := applyEvent_next e s
    rw [runEvents_cons es he]
    exact ih s'

/-- Settles O50: every event keeps the invariant, so every schedule does. -/
theorem everyScheduleKeepsTheInvariant : Obligations.EveryScheduleKeepsTheInvariant := by
  intro es s t h hrun
  exact runEvents_induction (P := fun _ => True) (fun _ _ _ _ => applyEvent_keeps_inv) es s t (fun _ _ => trivial) h
    hrun

/-! ## The halted machine -/

/-- Settles O43: by induction on the number of cycles, each of which stands still. -/
theorem haltedIsAbsorbing : Obligations.HaltedIsAbsorbing := by
  intro n s h
  have hcycle : core.step s = .next s := step_of_halted h
  induction n with
  | zero => rfl
  | succ n ih =>
    calc core.run (n + 1) s = core.run n s := by simp only [Core.run, hcycle]
      _ = .next s := ih

/-- What a halted machine keeps whatever the host does short of a reset: everything but the keypad, memory, `dirty` and
the model's counters (10_state.md R29). -/
def SameCore (s t : State) : Prop :=
  t.fatal = s.fatal ∧ t.v = s.v ∧ t.i = s.i ∧ t.pc = s.pc ∧ t.stack = s.stack ∧ t.dt = s.dt ∧ t.st = s.st ∧
    t.fb = s.fb ∧ t.ir = s.ir

theorem SameCore.refl (s : State) : SameCore s s := ⟨rfl, rfl, rfl, rfl, rfl, rfl, rfl, rfl, rfl⟩

/-- Of the events without a reset a cycle stands still, and the others write the keypad, `dirty` or memory. -/
theorem applyEvent_keeps_sameCore {e : Event} {s₀ s t : State} (he : e ≠ .reset) (hhalted : s₀.halted = true)
    (h : SameCore s₀ s) (hnext : applyEvent e s = .next t) : SameCore s₀ t := by
  have hfatal : s.fatal = s₀.fatal := h.1
  cases e with
  | cycle =>
    have hstep : step s = .next s := step_of_halted (by rwa [State.halted, hfatal])
    cases hstep.symm.trans hnext
    exact h
  | setKey k b => cases hnext; exact h
  | takeDirty => cases hnext; exact h
  | loadProgram bytes =>
    rcases applyEvent_loadProgram_cases bytes s with ⟨-, hload⟩ | ⟨-, hload⟩
    all_goals cases hload.symm.trans hnext; exact h
  | reset => exact absurd rfl he

/-- Settles O44: no event but a reset touches what the halted machine keeps, over the schedule by induction. -/
theorem onlyResetLeavesHalted : Obligations.OnlyResetLeavesHalted := by
  intro es s t hhalted hrun
  refine ⟨fun hes => ?_, resetOp t, rfl, rfl⟩
  exact runEvents_induction (fun e _ _ he => applyEvent_keeps_sameCore he hhalted) es s t hes (SameCore.refl s) hrun

/-! ## What a cycle leaves -/

theorem blocked_eq_waitsForKey (i : Instr) (s : State) : blocked i s = waitsForKey i s := by cases i <;> rfl

theorem tickByte_eq_ticked (b : Byte) : tickByte b = ticked b := by
  have := b.isLt
  apply BitVec.eq_of_toNat_eq
  rw [tickByte_toNat, ticked, BitVec.toNat_ofNat, Nat.mod_eq_of_lt (by omega)]

/-- The end of a cycle in the words of the statements. -/
theorem endCycle_eq (i : Instr) (s t : State) :
    endCycle i s t =
      if t.halted = true ∨ waitsForKey i s = true then t else { t with dt := ticked t.dt, st := ticked t.st } := by
  simp only [endCycle, blocked_eq_waitsForKey, tickTimers, tickByte_eq_ticked, Bool.or_eq_true]

/-- Settles O38: the instruction has a next state, and the cycle ends there with or without the tick. -/
theorem stepRunsTheDecodedInstruction : Obligations.StepRunsTheDecodedInstruction := by
  intro s i h
  obtain ⟨t, hexec⟩ := exec_next i (s.setIr (wordAtPc s))
  have hexec' : exec i { s with ir := wordAtPc s } = .next t := hexec
  rw [step_of_fetches h, hexec, hexec', afterExec, endCycle_eq]
  exact apply_ite Outcome.next _ _ _

/-- Settles O40: no row selects the word, so it decodes to nothing. -/
theorem unrecognizedWordHalts : Obligations.UnrecognizedWordHalts := by
  intro s hrun hpc hnone
  exact step_of_unrecognized hrun hpc (unmatchedWordIsUnrecognized _ hnone)

/-- Settles O42: a cycle that ends halted is a fatal entry of the machine with IR written. -/
theorem fatalCycleIsPrecise : Obligations.FatalCycleIsPrecise := by
  intro s t hrun hpc hstep hhalted
  rcases decodes_or_fetches hrun hpc with ⟨e, hdec⟩ | ⟨i, hf⟩
  · cases (step_of_unrecognized hrun hpc hdec).symm.trans hstep
    exact ⟨rfl, rfl, rfl⟩
  · rcases step_split hf with ⟨-, hnext⟩ | ⟨-, c, -, hnext⟩ | ⟨-, -, hnext⟩
    all_goals cases hnext.symm.trans hstep
    · cases hrun.symm.trans hhalted
    · exact ⟨rfl, rfl, rfl⟩
    · rw [State.halted, completed_fatal] at hhalted
      cases hrun.symm.trans hhalted

@[simp] theorem endCycle_keys (i : Instr) (s t : State) : (endCycle i s t).keys = t.keys := by
  unfold endCycle
  split <;> rfl

theorem exec_keys {i : Instr} {s t : State} (h : exec i s = .next t) : t.keys = s.keys := by
  rcases exec_cases h with ⟨-, rfl⟩ | ⟨c, rfl⟩ | ⟨pc, rfl⟩
  · rfl
  · rfl
  · exact effect_keys i s

/-- Settles O51: of the pieces of a cycle none writes the keypad, and no effect and no fatal entry writes IR. -/
theorem keypadIsWrittenByTheHostAlone : Obligations.KeypadIsWrittenByTheHostAlone := by
  refine ⟨fun s t hstep => ?keypad, fun i s t hexec => ?latch⟩
  case latch =>
    rcases exec_cases hexec with ⟨-, rfl⟩ | ⟨c, rfl⟩ | ⟨pc, rfl⟩
    · rfl
    · rfl
    · exact effect_ir i s
  case keypad =>
    rcases step_cases s with ⟨-, hnext⟩ | ⟨-, c, -, hnext⟩ | ⟨-, op, e, -, -, hnext⟩ | ⟨-, op, i, -, -, hnext⟩
    · cases hnext.symm.trans hstep; rfl
    · cases hnext.symm.trans hstep; rfl
    · cases hnext.symm.trans hstep; rfl
    · obtain ⟨u, hexec⟩ := exec_next i (s.setIr op)
      rw [hexec] at hnext
      cases hnext.symm.trans hstep
      rw [endCycle_keys, exec_keys hexec, State.setIr_keys]

/-- Settles O53: only a completing CXNN moves the counter. -/
theorem oneRandomBytePerCompletedRnd : Obligations.OneRandomBytePerCompletedRnd := by
  intro i s t hf hstep
  rcases step_split hf with ⟨hblocked, hnext⟩ | ⟨-, c, -, hnext⟩ | ⟨-, -, hnext⟩
  all_goals cases hnext.symm.trans hstep
  · refine ⟨?_, fun _ => rfl⟩
    rintro ⟨x, nn, rfl⟩
    cases hblocked
  · exact ⟨fun _ hrun => (nomatch hrun), fun _ => rfl⟩
  · refine ⟨?_, ?_⟩
    · rintro ⟨x, nn, rfl⟩ -
      rfl
    · obtain ⟨hrun, -, -⟩ := hf
      intro h
      rcases effect_rndIndex i (s.setIr (wordAtPc s)) with hsame | hrnd
      · exact hsame
      · have hhalted := h.resolve_left (not_not_intro hrnd)
        rw [State.halted, completed_fatal] at hhalted
        cases hrun.symm.trans hhalted

/-- Settles O55: a running machine's cycle writes IR before it reads it. -/
theorem oldOpcodeLatchIsNeverRead : Obligations.OldOpcodeLatchIsNeverRead := by
  intro s w hrun hpc
  rcases decodes_or_fetches hrun hpc with ⟨e, hdec⟩ | ⟨i, hf⟩
  · exact (step_of_unrecognized (s := s.setIr w) hrun hpc hdec).trans (step_of_unrecognized hrun hpc hdec).symm
  · exact (step_of_fetches ((fetches_setIr s w i).2 hf)).trans (step_of_fetches hf).symm

end Sys2Proof.Machine
end

section
/-!
PROOFS. The logic, arithmetic, shift and random forms (42_alu.md R108 to R118), and who writes VF (10_state.md R11).
-/

namespace Sys2Proof.Machine

open Sys2Proof.Claims

/-! ## Logic -/

/-- Settles O8: each of the three writes Vx alone, with the operation's own bits. -/
theorem logicOperationsBitByBit : Obligations.LogicOperationsBitByBit := by
  intro x y s
  refine ⟨?orReg, ?andReg, ?xorReg⟩
  case orReg => exact sequential_of_setV rfl fun t hx k => by rw [hx, BitVec.getLsbD_or]
  case andReg => exact sequential_of_setV rfl fun t hx k => by rw [hx, BitVec.getLsbD_and]
  case xorReg => exact sequential_of_setV rfl fun t hx k => by rw [hx, BitVec.getLsbD_xor]

/-! ## Forms with a flag -/

/-- Writing a result, a flag, then PC, is within the frame of the forms that write Vx and VF. -/
theorem regFrame_setResultFlag_setPc (s : State) (x : Reg) (r f : Byte) (pc : Word) :
    RegFrame [x, 0xF] s ((s.setResultFlag x r f).setPc pc) := by
  refine ⟨?registers, fun _ => rfl, rfl⟩
  case registers =>
    intro k hk
    obtain ⟨hx, hF⟩ : k ≠ x ∧ k ≠ regF := by simpa [regF] using hk
    exact (s.getV_setResultFlag x r f k).trans (by rw [if_neg hF, if_neg hx])

/-- A form that writes `r` to Vx, then `f` to VF, and advances PC is sequential within its frame, with the flag in VF
and, when X is not F, the result in Vx (42_alu.md R118). -/
theorem sequential_of_setResultFlag {i : Instr} {s : State} {x : Reg} {r f : Byte} {Q : Byte → Prop} {R : Byte → Prop}
    (hexec : exec i s = advance s (s.setResultFlag x r f)) (hflag : Q f) (hresult : R r) :
    Sequential i s (fun t => Q (t.getV 0xF) ∧ (x ≠ 0xF → R (t.getV x)) ∧ RegFrame [x, 0xF] s t) := by
  refine sequential_of_advance hexec ⟨?flag, ?result, regFrame_setResultFlag_setPc s x r f _⟩
  case flag =>
    have hVF : (s.setResultFlag x r f).getV 0xF = f := State.getV_setV_self _ regF f
    exact (congrArg Q hVF).mpr hflag
  case result =>
    intro hx
    have hVx : (s.setResultFlag x r f).getV x = r := (State.getV_setV_of_ne _ f hx).trans (State.getV_setV_self s x r)
    exact (congrArg R hVx).mpr hresult

/-- A flag in the words of the statements. -/
theorem flagByte_decide (p : Prop) [Decidable p] : flagByte (decide p) = if p then 1 else 0 := by
  simp [flagByte]

/-- Settles O9: the sum of two bytes is the one modulo 256, and the flag is the carry out of it. -/
theorem addRegisterSetsCarry : Obligations.AddRegisterSetsCarry := by
  intro x y s
  exact sequential_of_setResultFlag (Q := (· = _)) (R := fun r => r.toNat = _) rfl (flagByte_decide _)
    (BitVec.toNat_add _ _)

/-- The difference of two bytes as the statements write it. -/
theorem toNat_sub_byte (a b : Byte) : (a - b).toNat = (256 + a.toNat - b.toNat) % 256 := by
  have := b.isLt
  rw [BitVec.toNat_sub]
  congr 1
  omega

/-- Settles O10: the differences of two bytes are the ones modulo 256, and each flag is the inverse of the borrow. -/
theorem subtractionsSetNoBorrow : Obligations.SubtractionsSetNoBorrow := by
  intro x y s
  refine ⟨?sub, ?subn⟩
  case sub =>
    exact sequential_of_setResultFlag (Q := (· = _)) (R := fun r => r.toNat = _) rfl (flagByte_decide _)
      (toNat_sub_byte _ _)
  case subn =>
    exact sequential_of_setResultFlag (Q := (· = _)) (R := fun r => r.toNat = _) rfl (flagByte_decide _)
      (toNat_sub_byte _ _)

/-- Bit 0 as a number. -/
theorem shrFlag_toNat (b : Byte) : (shrFlag b).toNat = b.toNat % 2 := by
  rw [shrFlag, BitVec.getLsbD, Nat.testBit_zero, flagByte_decide]
  split <;> simp <;> omega

/-- Bit 7 as a number. -/
theorem shlFlag_toNat (b : Byte) : (shlFlag b).toNat = b.toNat / 128 := by
  have := b.isLt
  rw [shlFlag, BitVec.getLsbD, Nat.testBit_eq_decide_div_mod_eq, flagByte_decide]
  split <;> simp <;> omega

/-- Settles O11: a shift by one halves or doubles, and the flag is the bit it puts out. -/
theorem shiftsPutTheLostBitInVF : Obligations.ShiftsPutTheLostBitInVF := by
  intro x y s
  refine ⟨?shr, ?shl⟩
  case shr =>
    exact sequential_of_setResultFlag (Q := fun f => f.toNat = _) (R := fun r => r.toNat = _) rfl (shrFlag_toNat _)
      (by rw [BitVec.toNat_ushiftRight, Nat.shiftRight_eq_div_pow, pow_one])
  case shl =>
    exact sequential_of_setResultFlag (Q := fun f => f.toNat = _) (R := fun r => r.toNat = _) rfl (shlFlag_toNat _)
      (by rw [BitVec.toNat_shiftLeft, Nat.shiftLeft_eq, pow_one, mul_comm])

/-! ## The random byte -/

/-- Settles O12: Vx is the masked byte, bit by bit, and beside it only the counter moves. -/
theorem randomByteIsMasked : Obligations.RandomByteIsMasked := by
  intro x nn s
  have hexec : exec (.rnd x nn) s = advance s ((s.setV x (s.randomByte &&& nn)).drawRandom) := rfl
  have hVx (pc : Word) : (((s.setV x (s.randomByte &&& nn)).drawRandom).setPc pc).getV x = s.randomByte &&& nn :=
    State.getV_setV_self s x _
  refine sequential_of_advance hexec ⟨?cleared, ?kept, ?registers, fun _ => rfl, rfl⟩
  case cleared => intro k hk; rw [hVx, BitVec.getLsbD_and, hk, Bool.and_false]
  case kept => intro k hk; rw [hVx, BitVec.getLsbD_and, hk, Bool.and_true]; rfl
  case registers => intro k hk; exact State.getV_setV_of_ne s _ hk

/-! ## Who writes VF -/

/-- A flag is 0 or 1 (10_state.md R11). -/
theorem flagByte_eq_zero_or_one (c : Bool) : flagByte c = 0 ∨ flagByte c = 1 := by cases c <;> simp [flagByte]

theorem effect_flag {i : Instr} (s : State) (h : writesFlag i = true) : ∃ c, (effect i s).getV 0xF = flagByte c := by
  have hresult (x : Reg) (r : Byte) (c : Bool) : (s.setResultFlag x r (flagByte c)).getV 0xF = flagByte c :=
    State.getV_setV_self _ regF _
  cases i with
  | addReg x y | subReg x y | shr x y | subnReg x y | shl x y => exact ⟨_, hresult x _ _⟩
  | drw x y n => exact ⟨_, State.getV_setV_self _ regF _⟩
  | _ => cases h

/-- A load of V0 to VX does not reach VF unless X is F. -/
theorem getV_F_setRegs (s : State) {bs : List Byte} (h : bs.length ≤ 15) : (s.setRegs bs).getV 0xF = s.getV 0xF := by
  rw [State.getV_setRegs s bs (by omega)]
  exact dif_neg (Nat.not_lt.2 h)

theorem effect_getV_F {i : Instr} (s : State) (hflag : writesFlag i = false) (hx : xField i ≠ some 0xF) :
    (effect i s).getV 0xF = s.getV 0xF := by
  have hset {x : Reg} (b : Byte) (hx : some x ≠ some 0xF) : (s.setV x b).getV 0xF = s.getV 0xF :=
    State.getV_setV_of_ne s b fun h => hx (congrArg some h.symm)
  cases i with
  | ldByte x nn | addByte x nn => exact hset _ hx
  | ldReg x y | orReg x y | andReg x y | xorReg x y => exact hset _ hx
  | rnd x nn => exact hset _ hx
  | ldVxDt x | ldVxK x => exact hset _ hx
  | loadRegs x =>
    have hne : x ≠ 0xF := fun h => hx (congrArg some h)
    exact getV_F_setRegs s (by rw [memGetN_length]; bv_omega)
  | addReg x y | subReg x y | shr x y | subnReg x y | shl x y | drw x y n => cases hflag
  | _ => rfl

theorem writesFlag_of_blocked {i : Instr} {s : State} (h : blocked i s = true) : writesFlag i = false := by
  cases i with
  | ldVxK x => rfl
  | _ => cases h

/-- Settles O13: of the three things an instruction leaves, only a completed effect touches VF. -/
theorem onlyFlagInstructionsWriteVF : Obligations.OnlyFlagInstructionsWriteVF := by
  intro i s t hexec _ hrun
  rcases exec_cases hexec with ⟨hblocked, rfl⟩ | ⟨c, rfl⟩ | ⟨pc, rfl⟩
  · exact ⟨fun hflag => absurd hflag (by simp [writesFlag_of_blocked hblocked]), fun _ _ => rfl⟩
  · cases hrun
  · refine ⟨fun hflag => ?_, effect_getV_F s⟩
    obtain ⟨c, hc⟩ := effect_flag s hflag
    exact hc ▸ flagByte_eq_zero_or_one c

end Sys2Proof.Machine
end

section
/-!
PROOFS. Jumps, calls and returns (41_control_flow.md R90 to R97).
-/

namespace Sys2Proof.Machine

open Sys2Proof.Claims

/-! ## Jumps -/

/-- Settles O14: each of the two completes at its target with nothing else written, or raises above 0xFFE. -/
theorem jumpsSetPc : Obligations.JumpsSetPc := by
  intro nnn s
  refine ⟨?jp, ?jpFatal, ?jpV0, ?jpV0Fatal⟩
  case jp => exact fun h => completeAt_self_frame h
  case jpFatal => exact fun h => completeAt_fatal (by omega)
  case jpV0 => exact fun h => completeAt_self_frame h
  case jpV0Fatal => exact fun h => completeAt_fatal h

/-! ## Calls and returns -/

/-- CALL with room on the stack completes at its target, its own address pushed (R92). -/
theorem exec_call_of_room {nnn : Addr} {s : State} (hsp : s.sp < 16) (hpc : nnn.toNat ≤ 0xFFE) :
    exec (.call nnn) s = .next ((s.push s.pc).setPc (BitVec.ofNat 16 nnn.toNat)) := by
  have hnone : raised (.call nnn) s = none := by
    rw [raised_eq_fatalOf _ hsp.le, fatalOf_eq_none_iff]
    exact ⟨if_neg hsp.ne, rfl, hpc⟩
  exact exec_of_completes rfl hnone

/-- CALL with a full stack overflows, whatever its target (R92, 60_exceptions.md R158). -/
theorem exec_call_of_full {nnn : Addr} {s : State} (hsp : s.sp = 16) :
    exec (.call nnn) s = .next (fatalEntry .stackOverflow s) :=
  exec_of_raised rfl (if_pos hsp.ge)

/-- RET with no entry underflows (R90). -/
theorem exec_ret_of_empty {s : State} (hsp : s.sp = 0) : exec .ret s = .next (fatalEntry .stackUnderflow s) :=
  exec_of_raised rfl (fatalOf_of_stackFatal (if_pos hsp))

/-- RET completes after the address its top entry holds (R90). -/
theorem exec_ret_of_top {s : State} {w : Word} (htop : s.top = some w) (hpc : w.toNat + 2 ≤ 0xFFE) :
    exec .ret s = .next (s.pop.setPc (BitVec.ofNat 16 (w.toNat + 2))) := by
  simp only [exec, execRet, htop]
  exact completeAt_ok hpc

theorem exec_ret_of_top_out {s : State} {w : Word} (htop : s.top = some w) (hpc : 0xFFE < w.toNat + 2) :
    exec .ret s = .next (fatalEntry .outOfRangeAccess s) := by
  simp only [exec, execRet, htop]
  exact completeAt_fatal hpc

/-- The top entry is the one at SP - 1 (10_state.md R14). -/
theorem State.top_eq (s : State) : s.top = s.stack[s.sp - 1]? := List.getLast?_eq_getElem?

/-- Settles O15: the stack is checked, then the target; a push appends to the entries. -/
theorem callPushesItsOwnAddress : Obligations.CallPushesItsOwnAddress := by
  intro nnn s
  refine ⟨?overflow, ?outOfRange, ?completes⟩
  case overflow => exact exec_call_of_full
  case outOfRange =>
    intro hsp hnnn
    have hraised : raised (.call nnn) s = some .outOfRangeAccess := by
      rw [raised_eq_fatalOf _ hsp.le]
      exact fatalOf_of_pc (if_neg hsp.ne) (by simp only [newPc]; omega)
    exact exec_of_raised rfl hraised
  case completes =>
    intro hsp hnnn
    refine ⟨_, exec_call_of_room hsp hnnn, ?_, ?_, ?_, setPc_toNat hnnn, fun _ => rfl, fun _ => rfl, rfl⟩
    · exact List.length_append
    · exact List.getElem?_concat_length
    · exact fun k hk => List.getElem?_append_left hk

/-- Settles O16: the stack is checked, then the PC after the popped entry; a pop drops the last entry. -/
theorem returnPopsAndAdvances : Obligations.ReturnPopsAndAdvances := by
  intro s w
  refine ⟨exec_ret_of_empty, fun _ hw hpc => ?outOfRange, fun _ hw hpc => ?completes⟩
  case outOfRange => exact exec_ret_of_top_out (s.top_eq.trans hw) hpc
  case completes =>
    refine ⟨_, exec_ret_of_top (s.top_eq.trans hw) hpc, ?_, ?_, setPc_toNat hpc, fun _ => rfl, fun _ => rfl, rfl⟩
    · exact List.length_dropLast
    · intro k hk
      exact List.getElem?_dropLast.trans (if_pos hk)

/-- Settles O17: fatal entry keeps the stack and PC. -/
theorem stackLimitsAreFatal : Obligations.StackLimitsAreFatal := by
  intro nnn s
  refine ⟨fun hsp => ?_, fun hsp => ?_⟩
  · exact ⟨_, exec_call_of_full hsp, rfl, rfl, rfl, rfl⟩
  · exact ⟨_, exec_ret_of_empty hsp, rfl, rfl, hsp, rfl⟩

/-- Settles O18: the CALL's address is the top entry, and popping it leaves the stack before the CALL. -/
theorem callThenReturnResumesAfterTheCall : Obligations.CallThenReturnResumesAfterTheCall := by
  intro nnn s t u hsp hnnn hpc hcall hstack
  cases (exec_call_of_room hsp hnnn).symm.trans hcall
  have hstack' : u.stack = s.stack ++ [s.pc] := hstack
  have htop : u.top = some s.pc := by rw [State.top, hstack', List.getLast?_concat]
  refine ⟨_, exec_ret_of_top htop hpc, setPc_toNat hpc, ?_⟩
  rw [State.setPc_stack, State.pop_stack, hstack', List.dropLast_concat]

end Sys2Proof.Machine
end

section
/-!
PROOFS. The keypad and timer forms (44_keypad_timers.md R135 to R141), alone and over a whole cycle.
-/

namespace Sys2Proof.Machine

open Sys2Proof.Claims

/-! ## The skips by a key -/

/-- Settles O33: above 15 the operand check fails; up to 15 each of the two is `skipIf` of the key's level. -/
theorem keypadSkips : Obligations.KeypadSkips := by
  intro x s
  refine ⟨fun h => ⟨?skpFatal, ?sknpFatal⟩, fun h => ?skips⟩
  case skpFatal => exact exec_of_operand rfl rfl rfl (decide_eq_true h)
  case sknpFatal => exact exec_of_operand rfl rfl rfl (decide_eq_true h)
  case skips =>
    have hkey : keyOperand s x = .ok (s.keys.getLsbD (s.getV x).toNat) := if_pos h
    refine ⟨skips_of_skipIf (c := s.keys.getLsbD (s.getV x).toNat) ?_ Iff.rfl,
      skips_of_skipIf (c := !s.keys.getLsbD (s.getV x).toNat) ?_ (by simp)⟩
    · simp [exec, execSkp, hkey]
    · simp [exec, execSknp, hkey]

/-! ## The cycle of a sequential form -/

/-- The cycle of an instruction whose PC rule is PC + 2 and whose other checks pass (10_state.md R26). -/
theorem step_of_sequential {s : State} {i : Instr} (h : Fetches s i) (hpc : s.pc.toNat + 2 ≤ 0xFFE)
    (hblocked : blocked i s = false) (hraised : raised i s = fatalOf i s) (hstack : stackFatal i s = none)
    (hoperand : operandOutOfRange i s = false) (hnew : newPc i s = s.pc.toNat + 2) : step s = .next (completed i s) :=
  step_of_completes h hblocked (raised_eq_none_of_sequential hraised hstack hoperand hnew hpc)

/-- Settles O34: Vx takes DT in the instruction, and the tick comes after it. -/
theorem delayTimerIsReadBeforeTheTick : Obligations.DelayTimerIsReadBeforeTheTick := by
  intro x s
  refine ⟨sequential_of_setV rfl fun t hx => hx, fun hpc hf => ?_⟩
  have hVx : (completed (.ldVxDt x) s).getV x = s.dt := State.getV_setV_self (s.setIr _) x s.dt
  exact ⟨_, step_of_sequential hf hpc rfl rfl rfl rfl rfl, hVx, tickByte_toNat s.dt, tickByte_toNat s.st⟩

/-- The tone is on while ST is not 0 (60_exceptions.md R164). -/
theorem toneActive_iff (s : State) : s.toneActive = true ↔ 1 ≤ s.st.toNat := by
  rw [State.toneActive, decide_eq_true_iff, ← BitVec.toNat_ne_iff_ne, Nat.one_le_iff_ne_zero]
  rfl

/-- Settles O35: each of the two writes its timer alone, and the cycle ticks both after it. -/
theorem timersWrittenAreTickedInTheSameCycle : Obligations.TimersWrittenAreTickedInTheSameCycle := by
  intro x s
  refine ⟨?delay, ?sound, fun hpc => ⟨fun hf => ?delayCycle, fun hf => ?soundCycle⟩⟩
  case delay =>
    have hexec : exec (.ldDtVx x) s = advance s (s.setDt (s.getV x)) := rfl
    exact sequential_of_advance hexec ⟨rfl, fun _ => rfl, fun _ => rfl, rfl⟩
  case sound =>
    have hexec : exec (.ldStVx x) s = advance s (s.setSt (s.getV x)) := rfl
    exact sequential_of_advance hexec ⟨rfl, fun _ => rfl, fun _ => rfl, rfl⟩
  case delayCycle =>
    exact ⟨_, step_of_sequential hf hpc rfl rfl rfl rfl rfl, tickByte_toNat (s.getV x), tickByte_toNat s.st⟩
  case soundCycle =>
    have hst : (completed (.ldStVx x) s).st.toNat = (s.getV x).toNat - 1 := tickByte_toNat (s.getV x)
    refine ⟨_, step_of_sequential hf hpc rfl rfl rfl rfl rfl, hst, tickByte_toNat s.dt, ?_⟩
    rw [toneActive_iff, hst]
    omega

/-! ## The key wait -/

/-- The key FX0A reports is the number of a pressed key, whatever the choice (R138). -/
theorem reportedKey_pressed {s : State} (h : s.keys ≠ 0) :
    (BitVec.ofNat 8 s.reportedKey).toNat ≤ 15 ∧ s.keys.getLsbD (BitVec.ofNat 8 s.reportedKey).toNat = true := by
  obtain ⟨hlt, hdown⟩ := (mem_pressedKeys s.keys s.reportedKey).1 (selectKey_mem _ h)
  have hnat : (BitVec.ofNat 8 s.reportedKey).toNat = s.reportedKey := by
    rw [BitVec.toNat_ofNat, Nat.mod_eq_of_lt (by omega)]
  rw [hnat]
  exact ⟨by omega, hdown⟩

/-- Settles O36: with no key FX0A waits; with one it writes a pressed key's number, and its cycle ticks. -/
theorem keyWaitReportsAPressedKey : Obligations.KeyWaitReportsAPressedKey := by
  intro x s
  refine ⟨exec_ldVxK_of_no_key x, fun hkeys => ?completes, fun hf hkeys hpc => ?cycle⟩
  case completes =>
    have hexec : exec (.ldVxK x) s = advance s ((s.setV x (BitVec.ofNat 8 s.reportedKey)).drawKey) := if_neg hkeys
    have hVx (pc : Word) : (((s.setV x (BitVec.ofNat 8 s.reportedKey)).drawKey).setPc pc).getV x =
        BitVec.ofNat 8 s.reportedKey := State.getV_setV_self s x _
    obtain ⟨hle, hdown⟩ := reportedKey_pressed hkeys
    refine sequential_of_advance hexec ⟨?_, ?_, fun k hk => State.getV_setV_of_ne s _ hk, fun _ => rfl, rfl⟩
    · rwa [hVx]
    · rwa [hVx]
  case cycle =>
    have hnew : newPc (.ldVxK x) s = s.pc.toNat + 2 := if_neg hkeys
    have hVx : (completed (.ldVxK x) s).getV x = BitVec.ofNat 8 s.reportedKey := State.getV_setV_self (s.setIr _) x _
    obtain ⟨hle, hdown⟩ := reportedKey_pressed hkeys
    refine ⟨_, step_of_sequential hf hpc (beq_eq_false_iff_ne.2 hkeys) rfl rfl rfl hnew, ?_, ?_, ?_,
      tickByte_toNat s.dt, tickByte_toNat s.st⟩
    · rwa [hVx]
    · rwa [hVx]
    · exact hnew ▸ setPc_toNat (hnew.trans_le hpc)

end Sys2Proof.Machine
end

section
/-!
PROOFS. The index-register and memory forms (43_index_memory.md R126 to R132), and the byte accesses they are made of
(20_memory.md R43, R44).
-/

namespace Sys2Proof.Machine

open Sys2Proof.Claims

/-! ## One byte -/

/-- Settles O27: both accesses are checked against 4096, and a write is read back at its own address alone. -/
theorem byteAccessPrimitives : Obligations.ByteAccessPrimitives := by
  intro m a b
  refine ⟨fun h => ?inRange, fun h => ?outOfRange⟩
  case inRange =>
    have hlt : a < Config.memSize := Nat.lt_succ_of_le h
    have hrange : rangeOk a [b].length = true := (rangeOk_iff a 1).2 (.inr (by omega))
    refine ⟨if_pos hlt, memSet m a b, if_pos hrange, ?_, fun c hc => ?_⟩
    · simp [memRead, hlt]
    · simp only [memRead, memGet_memSet_other m b hc.symm]
  case outOfRange =>
    have hge : ¬ a < Config.memSize := Nat.not_lt_of_ge h
    have hrange : ¬ rangeOk a [b].length = true := fun hc => by
      have := (rangeOk_iff a 1).1 hc
      omega
    exact ⟨if_neg hge, if_neg hrange⟩

/-! ## The index sum -/

/-- Settles O21: I takes the sum modulo 4096, and nothing else is written. -/
theorem addToIndexWrapsSilently : Obligations.AddToIndexWrapsSilently := by
  intro x s
  have hsum : (indexSum s.i (s.getV x)).toNat = (s.i.toNat + (s.getV x).toNat) % 4096 := by
    rw [indexSum, BitVec.toNat_ofNat, Nat.mod_eq_of_lt (by omega)]
  exact sequential_of_setI rfl hsum

/-! ## Stores at I -/

/-- A form whose checks but the one of PC pass is sequential in its effect (10_state.md R27). -/
theorem sequential_of_effect {i : Instr} {s : State} {P : State → Prop} (hblocked : blocked i s = false)
    (hraised : raised i s = fatalOf i s) (hstack : stackFatal i s = none) (hoperand : operandOutOfRange i s = false)
    (hnew : newPc i s = s.pc.toNat + 2) (hP : P ((effect i s).setPc (BitVec.ofNat 16 (s.pc.toNat + 2)))) :
    Sequential i s P := by
  intro hpc
  exact ⟨_, exec_of_sequential hblocked hraised hstack hoperand hnew hpc, setPc_toNat hpc, hP⟩

/-- Storing a byte string at I, then PC, is within the frame of the forms that store as many bytes. -/
theorem storeFrame_setMem_setPc (s : State) (bs : List Byte) (pc : Word) :
    StoreFrame bs.length s ((s.setMem (memSetN s.mem s.i.toNat bs)).setPc pc) := by
  refine ⟨fun a ha => ?bytes, fun _ => rfl, rfl⟩
  case bytes =>
    refine (memGet_memSetN bs s.mem s.i.toNat a).trans (dif_neg ?_)
    omega

/-- A stored byte string is read back (20_memory.md R44). -/
theorem memGet_memSetN_add {bs : List Byte} (m : Memory) (a : Nat) {k : Nat} (hk : k < bs.length) :
    memGet (memSetN m a bs) (a + k) = bs[k] := by
  rw [memGet_memSetN, dif_pos (by omega)]
  simp

/-- Settles O22: the three digits of a byte, stored in order. -/
theorem decimalDigitsStored : Obligations.DecimalDigitsStored := by
  intro x s
  refine ⟨fun h => exec_of_operand rfl rfl rfl (decide_eq_true h), fun h => ?completes⟩
  case completes =>
    have hbyte := (s.getV x).isLt
    have hdigit {k : Nat} (hk : k < 3) : memGet (memSetN s.mem s.i.toNat (decimalDigits (s.getV x))) (s.i.toNat + k) =
        (decimalDigits (s.getV x))[k] := memGet_memSetN_add s.mem s.i.toNat hk
    have hframe (pc : Word) : StoreFrame 3 s ((effect (.ldB x) s).setPc pc) :=
      storeFrame_setMem_setPc s (decimalDigits (s.getV x)) pc
    refine sequential_of_effect rfl rfl rfl (decide_eq_false (by omega)) rfl ⟨?hundreds, ?tens, ?units, hframe _⟩
    case hundreds =>
      refine (congrArg BitVec.toNat (hdigit (k := 0) (by decide))).trans ?_
      exact Nat.mod_eq_of_lt (by omega)
    case tens =>
      refine (congrArg BitVec.toNat (hdigit (k := 1) (by decide))).trans ?_
      exact Nat.mod_eq_of_lt (by omega)
    case units =>
      refine (congrArg BitVec.toNat (hdigit (k := 2) (by decide))).trans ?_
      exact Nat.mod_eq_of_lt (by omega)

/-- After FX55's store the byte at I + k is Vk (R129). -/
theorem memGet_storeRegs (s : State) {x k : Reg} (hk : k.toNat ≤ x.toNat) :
    memGet (effect (.storeRegs x) s).mem (s.i.toNat + k.toNat) = s.getV k := by
  have hlength := s.regsUpTo_length x
  have hbyte := memGet_memSetN_add s.mem s.i.toNat (bs := s.regsUpTo x) (k := k.toNat) (by omega)
  rw [State.regsUpTo_getElem, BitVec.ofNat_toNat, BitVec.setWidth_eq] at hbyte
  exact hbyte

/-- FX55 within memory completes wherever its new PC is in range. -/
theorem exec_storeRegs_of_inRange {x : Reg} {s : State} (hrange : s.i.toNat + x.toNat ≤ 0xFFF)
    (hpc : s.pc.toNat + 2 ≤ 0xFFE) :
    exec (.storeRegs x) s = .next ((effect (.storeRegs x) s).setPc (BitVec.ofNat 16 (s.pc.toNat + 2))) :=
  exec_of_sequential rfl rfl rfl (decide_eq_false (by omega)) rfl hpc

/-- Settles O23: the registers up to X, stored in order. -/
theorem registersStored : Obligations.RegistersStored := by
  intro x s
  refine ⟨fun h => exec_of_operand rfl rfl rfl (decide_eq_true h), fun h => ?completes⟩
  case completes =>
    have hframe (pc : Word) := storeFrame_setMem_setPc s (s.regsUpTo x) pc
    rw [State.regsUpTo_length] at hframe
    exact sequential_of_effect rfl rfl rfl (decide_eq_false (by omega)) rfl
      ⟨fun k hk => memGet_storeRegs s hk, hframe _⟩

/-! ## Loads from I -/

/-- After FX65 the registers up to X hold the bytes from I, and the others are unchanged (R130). -/
theorem getV_loadRegs (s : State) (x k : Reg) :
    (effect (.loadRegs x) s).getV k = if k.toNat ≤ x.toNat then memGet s.mem (s.i.toNat + k.toNat) else s.getV k := by
  have hx := x.isLt
  simp only [effect]
  rw [State.getV_setRegs _ _ (by rw [memGetN_length]; omega)]
  simp

/-- FX65 within memory completes wherever its new PC is in range. -/
theorem exec_loadRegs_of_inRange {x : Reg} {s : State} (hrange : s.i.toNat + x.toNat ≤ 0xFFF)
    (hpc : s.pc.toNat + 2 ≤ 0xFFE) :
    exec (.loadRegs x) s = .next ((effect (.loadRegs x) s).setPc (BitVec.ofNat 16 (s.pc.toNat + 2))) :=
  exec_of_sequential rfl rfl rfl (decide_eq_false (by omega)) rfl hpc

/-- Settles O24: the bytes from I, loaded in order; memory and I are not written. -/
theorem registersLoaded : Obligations.RegistersLoaded := by
  intro x s
  refine ⟨fun h => exec_of_operand rfl rfl rfl (decide_eq_true h), fun h => ?completes⟩
  case completes =>
    refine sequential_of_effect rfl rfl rfl (decide_eq_false (by omega)) rfl
      ⟨fun k hk => ?_, fun k hk => ?_, fun _ => rfl, rfl⟩
    · exact (getV_loadRegs s x k).trans (if_pos hk)
    · exact (getV_loadRegs s x k).trans (if_neg (by omega))

/-- Settles O25: the load reads, at the I the store left, the bytes it stored. -/
theorem storeThenLoadRestoresRegisters : Obligations.StoreThenLoadRestoresRegisters := by
  intro x s t u w hrange hpc hstore hload k hk
  have hpc' : s.pc.toNat + 2 ≤ 0xFFE := by omega
  cases (exec_storeRegs_of_inRange hrange hpc').symm.trans hstore
  have hnext : (BitVec.ofNat 16 (s.pc.toNat + 2)).toNat + 2 ≤ 0xFFE := by
    rw [setPc_toNat hpc']
    exact hpc
  have hloaded := exec_loadRegs_of_inRange (x := x) hrange hnext
    (s := { (effect (.storeRegs x) s).setPc (BitVec.ofNat 16 (s.pc.toNat + 2)) with v := w })
  cases hloaded.symm.trans hload
  exact (getV_loadRegs _ x k).trans ((if_pos hk).trans (memGet_storeRegs s hk))

/-- Settles O26: the two bytes the fetch reads are the first two stored. -/
theorem storeIsSeenByTheNextFetch : Obligations.StoreIsSeenByTheNextFetch := by
  intro x s t hx hi hrange hpc hstore
  cases (exec_storeRegs_of_inRange hrange hpc).symm.trans hstore
  have hnext : ((effect (.storeRegs x) s).setPc (BitVec.ofNat 16 (s.pc.toNat + 2))).pc.toNat = s.i.toNat :=
    (setPc_toNat hpc).trans hi.symm
  have hV0 := memGet_storeRegs s (x := x) (k := 0) (Nat.zero_le _)
  have hV1 := memGet_storeRegs s (x := x) (k := 1) hx
  rw [fetch_eq_wordAtPc (by omega), wordAtPc, hnext]
  exact congrArg Except.ok (congrArg₂ (· ++ ·) hV0 hV1)

end Sys2Proof.Machine
end

section
/-!
PROOFS. Reset and the host's operations (70_reset_and_hazards.md R170 to R174; 10_state.md R17, R32; 40_display.md R83).
-/

namespace Sys2Proof.Machine

open Sys2Proof.Claims

/-- The font set, then zeros (20_memory.md R41). -/
theorem initialByte_of_lt {a : Nat} (h : a < font.length) : initialByte a = font[a] := by
  simp [initialByte, h]

theorem initialByte_of_ge {a : Nat} (h : 80 ≤ a) : initialByte a = 0 := by
  have hnone : font[a]? = none := List.getElem?_eq_none h
  simp [initialByte, hnone]

/-- Settles O46: the reset fields by evaluation, and memory as its reset contents. -/
theorem resetStatedValues : Obligations.ResetStatedValues :=
  ⟨rfl, rfl, rfl, rfl, rfl, fun _ h => initialByte_of_lt h, fun _ h => initialByte_of_ge h,
    fun s => ⟨resetOp s, rfl, rfl⟩⟩

/-- Settles O47: every register and pixel of a replicated row is its value, the rest by evaluation. -/
theorem resetChosenValues : Obligations.ResetChosenValues := by
  refine ⟨fun k => ?registers, rfl, rfl, fun px py => fbPixel_fbBlank px py, rfl, rfl, rfl, rfl⟩
  case registers => exact Vector.getElem_replicate k.isLt

/-- Settles O56: a program that fits is written from 0x200 on; one that does not leaves the machine. -/
theorem loadProgramCopiesBytes : Obligations.LoadProgramCopiesBytes := by
  intro bytes s
  rcases loadProgram_cases bytes s with ⟨hlen, hload⟩ | ⟨hlen, hload⟩
  · refine ⟨fun _ => ⟨_, hload, fun k hk => memGet_memSetN_add s.mem 0x200 hk, fun a ha => ?_, rfl⟩, fun h => by omega⟩
    refine (memGet_memSetN bytes s.mem 0x200 a).trans (dif_neg ?_)
    omega
  · refine ⟨fun h => by omega, fun _ => ⟨hload, ?_⟩⟩
    simp [applyEvent, hload]

/-- The mask of a key has its bit alone. -/
theorem getLsbD_keyBit (k : Nibble) (j : Nat) : (keyBit k).getLsbD j = decide (j = k.toNat) := by
  have hbit : (keyBit k).getLsbD j = (decide (k.toNat < 16) && decide (k.toNat = j)) :=
    BitVec.getLsbD_twoPow k.toNat j
  rw [hbit, decide_eq_true k.isLt, Bool.true_and]
  exact decide_eq_decide.2 eq_comm

/-- A written key reads as written, the others as before (10_state.md R17). -/
theorem setKey_keyDown (k : Nibble) (b : Bool) (s : State) (j : Nat) (hj : j < 16) :
    (setKey k b s).keyDown j = if j = k.toNat then b else s.keyDown j := by
  cases b with
  | true =>
    simp only [setKey, State.keyDown, if_true, BitVec.getLsbD_or, getLsbD_keyBit]
    by_cases h : j = k.toNat <;> simp [h]
  | false =>
    simp only [setKey, State.keyDown, Bool.false_eq_true, if_false, BitVec.getLsbD_and, BitVec.getLsbD_not,
      getLsbD_keyBit, hj]
    by_cases h : j = k.toNat <;> simp [h]

/-- Settles O57: the mask of the key sets or clears its bit. -/
theorem keyAndDirtyOperations : Obligations.KeyAndDirtyOperations := by
  intro k b s
  refine ⟨?_, fun j hj hne => ?_, rfl, rfl, rfl⟩
  · rw [setKey_keyDown k b s k.toNat k.isLt, if_pos rfl]
  · rw [setKey_keyDown k b s j hj, if_neg hne]

end Sys2Proof.Machine
end

section
/-!
PROOFS. A sprite as the list of places under its 1 bits (40_display.md R81, R82), and the drawing as one flip per place.
-/

namespace Sys2Proof.Machine

open Sys2Proof.Claims

/-! ## Places of the grid -/

/-- A place of the grid, column and row, with its bounds (10_state.md R19). -/
abbrev Place := Fin 64 × Fin 32

/-- The place two coordinates name: both wrap (40_display.md R81). -/
def place (x y : Nat) : Place := (Fin.ofNat 64 x, Fin.ofNat 32 y)

/-- The pixel at a place. -/
def pixelAt (fb : Framebuffer) (p : Place) : Bool := fbPixel fb p.1 p.2

@[simp] theorem pixelAt_place (fb : Framebuffer) (x y : Nat) : pixelAt fb (place x y) = fbPixel fb x y := by
  simp [pixelAt, place, fbPixel]

theorem place_eq_iff (x y x' y' : Nat) : place x y = place x' y' ↔ x % 64 = x' % 64 ∧ y % 32 = y' % 32 := by
  simp [place, Fin.ext_iff]

@[simp] theorem place_val (p : Place) : place p.1 p.2 = p := by
  simp [place]

/-- Two grids with the same pixel at every place are the same. -/
theorem fb_ext_pixelAt {a b : Framebuffer} (h : ∀ p, pixelAt a p = pixelAt b p) : a = b :=
  fb_ext fun x y _ _ => by simpa using h (place x y)

/-- A 1 bit of a sprite, drawn at a place. -/
def plot (c : Canvas) (p : Place) : Canvas := drawBit p.1 p.2 true c

theorem drawBit_true_eq_plot (x y : Nat) (c : Canvas) : drawBit x y true c = plot c (place x y) := by
  simp [plot, place, fbFlip, fbPixel]

@[simp] theorem plot_collision (c : Canvas) (p : Place) : (plot c p).collision = (c.collision || pixelAt c.fb p) := rfl

theorem plot_fb (c : Canvas) (p : Place) : (plot c p).fb = fbFlip c.fb p.1 p.2 := rfl

/-- A plot inverts the pixel at its place and leaves the others (R81). -/
theorem pixelAt_plot (c : Canvas) (p q : Place) :
    pixelAt (plot c p).fb q = (decide (q = p) ^^ pixelAt c.fb q) := by
  have hplace : (q.1.val % 64 = p.1.val % 64 ∧ q.2.val % 32 = p.2.val % 32) ↔ q = p := by
    rw [← place_eq_iff, place_val, place_val]
  rw [plot_fb, pixelAt, fbPixel_fbFlip, if_congr hplace rfl rfl]
  by_cases h : q = p <;> simp [h, pixelAt]

/-! ## A sprite as its places -/

/-- The places under the 1 bits of a row from bit `i` on, `n` bits being left (R81). -/
def rowPlaces (x y : Nat) (row : Byte) (i n : Nat) : List Place :=
  ((List.range' i n).filter fun k => row.getLsbD (7 - k)).map fun k => place (x + k) y

/-- The places under the 1 bits of a sprite (R81). -/
def spritePlaces (x y : Nat) : List Byte → List Place
  | [] => []
  | r :: rs => rowPlaces x y r 0 8 ++ spritePlaces x (y + 1) rs

theorem drawBits_eq_foldl (x y : Nat) (row : Byte) (i n : Nat) (c : Canvas) :
    drawBits x y row i n c = (rowPlaces x y row i n).foldl plot c := by
  induction n generalizing i c with
  | zero => rfl
  | succ n ih =>
    rw [drawBits, ih, rowPlaces, rowPlaces, List.range'_succ]
    cases hbit : row.getLsbD (7 - i) with
    | false => simp [hbit]
    | true => simp [hbit, ← drawBit_true_eq_plot]

theorem drawRows_eq_foldl (x y : Nat) (rows : List Byte) (c : Canvas) :
    drawRows x y rows c = (spritePlaces x y rows).foldl plot c := by
  induction rows generalizing y c with
  | nil => rfl
  | cons r rs ih => rw [drawRows_cons, ih, drawRow, drawBits_eq_foldl, spritePlaces, List.foldl_append]

/-- A sprite is drawn by plotting its places in order (R81, R82). -/
theorem drawSprite_eq_foldl (s : State) (x0 y0 : Byte) (rows : List Byte) :
    drawSprite s x0 y0 rows = (spritePlaces x0.toNat y0.toNat rows).foldl plot ⟨s.fb, s.dirty, false⟩ :=
  drawRows_eq_foldl _ _ _ _

theorem mem_rowPlaces {x y : Nat} {row : Byte} {p : Place} :
    p ∈ rowPlaces x y row 0 8 ↔ ∃ i, i < 8 ∧ row.getLsbD (7 - i) = true ∧ p = place (x + i) y := by
  simp only [rowPlaces, List.mem_map, List.mem_filter, List.mem_range'_1, Nat.zero_le, true_and, Nat.zero_add,
    and_assoc, eq_comm (a := p)]

theorem mem_spritePlaces {x y : Nat} {rows : List Byte} {p : Place} :
    p ∈ spritePlaces x y rows ↔
      ∃ j i, ∃ h : j < rows.length, i < 8 ∧ (rows[j]).getLsbD (7 - i) = true ∧ p = place (x + i) (y + j) := by
  induction rows generalizing y with
  | nil => simp [spritePlaces]
  | cons r rs ih =>
    rw [spritePlaces, List.mem_append, mem_rowPlaces, ih]
    constructor
    · rintro (⟨i, hi, hbit, rfl⟩ | ⟨j, i, hj, hi, hbit, rfl⟩)
      · exact ⟨0, i, by simp, hi, hbit, rfl⟩
      · exact ⟨j + 1, i, by simpa using hj, hi, hbit, by rw [Nat.add_assoc, Nat.add_comm 1 j]⟩
    · rintro ⟨j, i, hj, hi, hbit, rfl⟩
      cases j with
      | zero => exact .inl ⟨i, hi, hbit, rfl⟩
      | succ j => exact .inr ⟨j, i, by simpa using hj, hi, hbit, by rw [Nat.add_assoc, Nat.add_comm 1 j]⟩

/-- The places of a sprite are the pixels it covers, in the words of the statements. -/
theorem mem_spritePlaces_iff_covers {x y : Nat} {rows : List Byte} {px py : Nat} (hx : px < 64) (hy : py < 32) :
    place px py ∈ spritePlaces x y rows ↔ Covers x y rows px py := by
  simp only [mem_spritePlaces, Covers, place_eq_iff, Nat.mod_eq_of_lt hx, Nat.mod_eq_of_lt hy]

theorem nodup_rowPlaces (x y : Nat) (row : Byte) : (rowPlaces x y row 0 8).Nodup := by
  refine List.Nodup.map_on ?_ (List.Nodup.filter _ List.nodup_range')
  intro k hk k' hk' heq
  have hk8 : k < 8 := by simpa using (List.mem_filter.1 hk).1
  have hk8' : k' < 8 := by simpa using (List.mem_filter.1 hk').1
  have := ((place_eq_iff _ _ _ _).1 heq).1
  omega

/-- No place is under two bits of a sprite of up to 32 rows: 8 columns do not meet again modulo 64, nor the rows modulo
32 (R81). -/
theorem nodup_spritePlaces (x y : Nat) {rows : List Byte} (h : rows.length ≤ 32) : (spritePlaces x y rows).Nodup := by
  induction rows generalizing y with
  | nil => exact List.nodup_nil
  | cons r rs ih =>
    rw [List.length_cons] at h
    refine List.nodup_append'.2 ⟨nodup_rowPlaces x y r, ih (y + 1) (by omega), ?_⟩
    intro p hrow hrest
    obtain ⟨i, -, -, rfl⟩ := mem_rowPlaces.1 hrow
    obtain ⟨j, i', hj, -, -, heq⟩ := mem_spritePlaces.1 hrest
    have := ((place_eq_iff _ _ _ _).1 heq).2
    omega

/-! ## What plotting distinct places does -/

/-- Every plotted place is inverted once and no other pixel changes. -/
theorem pixelAt_foldl_plot {ps : List Place} (h : ps.Nodup) (c : Canvas) (q : Place) :
    pixelAt (ps.foldl plot c).fb q = (decide (q ∈ ps) ^^ pixelAt c.fb q) := by
  induction ps generalizing c with
  | nil => simp
  | cons p ps ih =>
    rw [List.nodup_cons] at h
    rw [List.foldl_cons, ih h.2, pixelAt_plot]
    by_cases hq : q = p
    · subst hq; simp [h.1]
    · simp [hq]

/-- Plotting distinct places collides when one of them was set before (R82). -/
theorem collision_foldl_plot {ps : List Place} (h : ps.Nodup) (c : Canvas) :
    (ps.foldl plot c).collision = true ↔ c.collision = true ∨ ∃ p ∈ ps, pixelAt c.fb p = true := by
  induction ps generalizing c with
  | nil => simp
  | cons p ps ih =>
    rw [List.nodup_cons] at h
    have hrest : (∃ q ∈ ps, pixelAt (plot c p).fb q = true) ↔ ∃ q ∈ ps, pixelAt c.fb q = true := by
      refine exists_congr fun q => and_congr_right fun hq => ?_
      have hne : q ≠ p := fun heq => h.1 (heq ▸ hq)
      rw [pixelAt_plot, decide_eq_false hne, Bool.false_xor]
    rw [List.foldl_cons, ih h.2, hrest, plot_collision, Bool.or_eq_true, List.exists_mem_cons_iff, or_assoc]

section
variable (s : State) (x0 y0 : Byte) {rows : List Byte} (h : rows.length ≤ 15)
include h

theorem pixelAt_drawSprite (q : Place) :
    pixelAt (drawSprite s x0 y0 rows).fb q =
      (decide (q ∈ spritePlaces x0.toNat y0.toNat rows) ^^ pixelAt s.fb q) := by
  rw [drawSprite_eq_foldl, pixelAt_foldl_plot (nodup_spritePlaces _ _ (by omega))]

theorem collision_drawSprite :
    (drawSprite s x0 y0 rows).collision = true ↔
      ∃ p ∈ spritePlaces x0.toNat y0.toNat rows, pixelAt s.fb p = true := by
  rw [drawSprite_eq_foldl, collision_foldl_plot (nodup_spritePlaces _ _ (by omega))]
  simp

end

/-- Settles O31: each place is inverted twice. -/
theorem drawingTwiceRestoresTheGrid : Obligations.DrawingTwiceRestoresTheGrid := by
  intro s x0 y0 rows h
  refine fb_ext_pixelAt fun p => ?_
  rw [pixelAt_drawSprite _ _ _ h, State.setCanvas_fb, pixelAt_drawSprite _ _ _ h]
  simp

theorem spritePlaces_congr {x x' y y' : Nat} (hx : x % 64 = x' % 64) (hy : y % 32 = y' % 32) (rows : List Byte) :
    spritePlaces x y rows = spritePlaces x' y' rows := by
  induction rows generalizing y y' with
  | nil => rfl
  | cons r rs ih =>
    have hplace (k : Nat) : place (x + k) y = place (x' + k) y' := (place_eq_iff _ _ _ _).2 ⟨by omega, hy⟩
    simp only [spritePlaces, rowPlaces, hplace]
    rw [ih (y := y + 1) (y' := y' + 1) (by omega)]

/-- Settles O32: congruent coordinates name the same places. -/
theorem startCoordinatesWrap : Obligations.StartCoordinatesWrap := by
  intro s x0 y0 x1 y1 rows hx hy
  rw [drawSprite_eq_foldl, drawSprite_eq_foldl, spritePlaces_congr hx hy]

/-- A sprite with one 1 bit has one place. -/
theorem mem_spritePlaces_of_onlyBit {x y : Nat} {rows : List Byte} {j i : Nat} (h : OnlyBit rows j i) (p : Place) :
    p ∈ spritePlaces x y rows ↔ p = place (x + i) (y + j) := by
  obtain ⟨⟨hj, hi, hbit⟩, honly⟩ := h
  rw [mem_spritePlaces]
  constructor
  · rintro ⟨j', i', hj', hi', hbit', rfl⟩
    obtain ⟨rfl, rfl⟩ := honly j' i' ⟨hj', hi', hbit'⟩
    rfl
  · rintro rfl
    exact ⟨j, i, hj, hi, hbit, rfl⟩

theorem fbPixel_mod (fb : Framebuffer) (x y : Nat) : fbPixel fb (x % 64) (y % 32) = pixelAt fb (place x y) := by
  simp [fbPixel]

/-- A sprite of one place collides iff the pixel there was set, and inverts it. -/
theorem drawSprite_of_one_place (s : State) {x0 y0 : Byte} {rows : List Byte} {q : Place} (h : rows.length ≤ 15)
    (hmem : ∀ p, p ∈ spritePlaces x0.toNat y0.toNat rows ↔ p = q) :
    (drawSprite s x0 y0 rows).collision = pixelAt s.fb q ∧
      pixelAt (drawSprite s x0 y0 rows).fb q = !pixelAt s.fb q := by
  refine ⟨?collision, ?pixel⟩
  case collision =>
    rw [Bool.eq_iff_iff, collision_drawSprite s x0 y0 h]
    simp [hmem]
  case pixel =>
    rw [pixelAt_drawSprite s x0 y0 h]
    simp [hmem]

/-- Settles O30: a collision is a set pixel at a place of the sprite; a sprite of one place inverts it at each draw. -/
theorem collisionIsSetPixelUnderSpriteBit : Obligations.CollisionIsSetPixelUnderSpriteBit := by
  intro s x0 y0 rows h
  simp only [fbPixel_mod]
  refine ⟨?collision, fun j i honly => ?twice⟩
  case collision =>
    rw [collision_drawSprite s x0 y0 h]
    constructor
    · rintro ⟨p, hp, hset⟩
      obtain ⟨j, i, hj, hi, hbit, rfl⟩ := mem_spritePlaces.1 hp
      exact ⟨j, i, hj, hi, hbit, hset⟩
    · rintro ⟨j, i, hj, hi, hbit, hset⟩
      exact ⟨_, mem_spritePlaces.2 ⟨j, i, hj, hi, hbit, rfl⟩, hset⟩
  case twice =>
    have hmem := mem_spritePlaces_of_onlyBit (x := x0.toNat) (y := y0.toNat) honly
    obtain ⟨hfirst, honce⟩ := drawSprite_of_one_place s h hmem
    obtain ⟨hsecond, htwice⟩ := drawSprite_of_one_place (s.setCanvas (drawSprite s x0 y0 rows)) h hmem
    rw [State.setCanvas_fb, honce] at hsecond htwice
    exact ⟨hfirst, hsecond, htwice.trans (Bool.not_not _)⟩

/-! ## DXYN -/

/-- A drawn pixel, in the words of the statements: inverted where the sprite covers it, else as before. -/
theorem fbPixel_drawSprite (s : State) (x0 y0 : Byte) {rows : List Byte} (h : rows.length ≤ 15) {px py : Nat}
    (hx : px < 64) (hy : py < 32) :
    (Covers x0.toNat y0.toNat rows px py → fbPixel (drawSprite s x0 y0 rows).fb px py = !fbPixel s.fb px py) ∧
    (¬ Covers x0.toNat y0.toNat rows px py → fbPixel (drawSprite s x0 y0 rows).fb px py = fbPixel s.fb px py) := by
  have hpixel := pixelAt_drawSprite s x0 y0 h (place px py)
  rw [pixelAt_place, pixelAt_place] at hpixel
  have hmem := mem_spritePlaces_iff_covers (x := x0.toNat) (y := y0.toNat) (rows := rows) hx hy
  refine ⟨fun hon => ?_, fun hoff => ?_⟩
  · rw [hpixel, decide_eq_true (hmem.2 hon), Bool.true_xor]
  · rw [hpixel, decide_eq_false (mt hmem.1 hoff), Bool.false_xor]

/-- The collision in the words of the statements: some covered pixel was set. -/
theorem collision_drawSprite_iff_covers (s : State) (x0 y0 : Byte) {rows : List Byte} (h : rows.length ≤ 15) :
    (drawSprite s x0 y0 rows).collision = true ↔
      ∃ px py, px < 64 ∧ py < 32 ∧ Covers x0.toNat y0.toNat rows px py ∧ fbPixel s.fb px py = true := by
  rw [collision_drawSprite s x0 y0 h]
  constructor
  · rintro ⟨p, hp, hset⟩
    rw [← place_val p, mem_spritePlaces_iff_covers p.1.isLt p.2.isLt] at hp
    exact ⟨p.1, p.2, p.1.isLt, p.2.isLt, hp, hset⟩
  · rintro ⟨px, py, hx, hy, hon, hset⟩
    exact ⟨place px py, (mem_spritePlaces_iff_covers hx hy).2 hon, (pixelAt_place _ _ _).trans hset⟩

theorem drawEffect_getV_F (s : State) (x y : Reg) (rows : List Byte) :
    (drawEffect s x y rows).getV 0xF = flagByte (drawSprite s (s.getV x) (s.getV y) rows).collision :=
  State.getV_setV_self _ regF _

/-- Settles O29: up to 15 rows are read, the pixels and the collision are those of their sprite, and the rest is the
frame of the effect. -/
theorem drawXorsTheSprite : Obligations.DrawXorsTheSprite := by
  intro x y n s
  refine ⟨fun hn hout => exec_of_operand rfl rfl rfl (decide_eq_true ⟨hn, hout⟩), fun hin => ?completes⟩
  case completes =>
    have hoperand : operandOutOfRange (.drw x y n) s = false := decide_eq_false (by omega)
    have hlen : (memGetN s.mem s.i.toNat n.toNat).length ≤ 15 := by
      rw [memGetN_length]
      exact Nat.le_of_lt_succ n.isLt
    have hVF := drawEffect_getV_F s x y (memGetN s.mem s.i.toNat n.toNat)
    have hcollision := collision_drawSprite_iff_covers s (s.getV x) (s.getV y) hlen
    refine sequential_of_effect rfl rfl rfl hoperand rfl ⟨?pixels, ?hit, ?miss, rfl, ?registers, fun _ => rfl, rfl⟩
    case pixels => exact fun px py hx hy => fbPixel_drawSprite s (s.getV x) (s.getV y) hlen hx hy
    case hit => exact fun hset => hVF.trans (congrArg flagByte (hcollision.2 hset))
    case miss =>
      exact fun hunset => hVF.trans (congrArg flagByte (Bool.eq_false_iff.2 (mt hcollision.1 hunset)))
    case registers => exact fun k hk => State.getV_setV_of_ne _ _ hk

end Sys2Proof.Machine
end

section
/-!
PROOFS. `dirty` has no effect on any cycle (10_state.md R20).
-/

namespace Sys2Proof.Machine

open Sys2Proof.Claims Host

/-- The machine with another `dirty`. -/
def State.withDirty (s : State) (b : Bool) : State := { s with dirty := b }

/-- Plotting reads no `dirty`: the grids and the collisions stay the same. -/
theorem foldl_plot_dirty (ps : List Place) (c : Canvas) (b : Bool) :
    ∃ b', ps.foldl plot { c with dirty := b } = { ps.foldl plot c with dirty := b' } := by
  induction ps generalizing c b with
  | nil => exact ⟨b, rfl⟩
  | cons p ps ih => exact ih (plot c p) true

theorem drawSprite_withDirty (s : State) (x0 y0 : Byte) (rows : List Byte) (b : Bool) :
    ∃ b', drawSprite (s.withDirty b) x0 y0 rows = { drawSprite s x0 y0 rows with dirty := b' } := by
  rw [drawSprite_eq_foldl, drawSprite_eq_foldl]
  exact foldl_plot_dirty _ ⟨s.fb, s.dirty, false⟩ b

/-- What DXYN makes of a drawn canvas (40_display.md R85). -/
def setDrawn (s : State) (c : Canvas) : State := ((s.setCanvas c).setV regF (flagByte c.collision)).markDirty

theorem drawEffect_withDirty (s : State) (b : Bool) (x y : Reg) (rows : List Byte) :
    drawEffect (s.withDirty b) x y rows = (drawEffect s x y rows).withDirty true := by
  obtain ⟨b', h⟩ := drawSprite_withDirty s (s.getV x) (s.getV y) rows b
  calc drawEffect (s.withDirty b) x y rows
      = setDrawn (s.withDirty b) (drawSprite (s.withDirty b) (s.getV x) (s.getV y) rows) := rfl
    _ = setDrawn (s.withDirty b) { drawSprite s (s.getV x) (s.getV y) rows with dirty := b' } := by rw [h]
    _ = (drawEffect s x y rows).withDirty true := rfl

/-- No effect reads `dirty`. -/
theorem effect_withDirty (i : Instr) (s : State) (b : Bool) :
    ∃ b', effect i (s.withDirty b) = (effect i s).withDirty b' := by
  cases i with
  | cls => exact ⟨true, rfl⟩
  | drw x y n => exact ⟨true, drawEffect_withDirty s b x y _⟩
  | _ => exact ⟨b, rfl⟩

theorem raised_withDirty (i : Instr) (s : State) (b : Bool) : raised i (s.withDirty b) = raised i s := by
  cases i <;> rfl

theorem newPc_withDirty (i : Instr) (s : State) (b : Bool) : newPc i (s.withDirty b) = newPc i s := by
  cases i <;> rfl

/-- No instruction reads `dirty`. -/
theorem exec_withDirty {i : Instr} {s t : State} (b : Bool) (h : exec i s = .next t) :
    ∃ b', exec i (s.withDirty b) = .next (t.withDirty b') := by
  rcases exec_split i s with ⟨hblocked, hexec⟩ | ⟨hblocked, c, hc, hexec⟩ | ⟨hblocked, hnone, hexec⟩
  all_goals cases hexec.symm.trans h
  · exact ⟨b, exec_of_blocked hblocked⟩
  · exact ⟨b, exec_of_raised hblocked ((raised_withDirty i s b).trans hc)⟩
  · obtain ⟨b', heffect⟩ := effect_withDirty i s b
    refine ⟨b', ?_⟩
    have hnone' := (raised_withDirty i s b).trans hnone
    rw [exec_of_completes (s := s.withDirty b) hblocked hnone', heffect, newPc_withDirty]
    rfl

theorem endCycle_withDirty (i : Instr) (s t : State) (b b' : Bool) :
    endCycle i (s.withDirty b) (t.withDirty b') = (endCycle i s t).withDirty b' :=
  (apply_ite (State.withDirty · b') ((t.halted || blocked i s) = true) t (tickTimers t)).symm

/-- No cycle reads `dirty`. -/
theorem step_withDirty {s t : State} (b : Bool) (h : step s = .next t) :
    ∃ b', step (s.withDirty b) = .next (t.withDirty b') := by
  have hfetchSame : fetch (s.withDirty b) = fetch s := rfl
  have hhaltedSame : (s.withDirty b).halted = s.halted := rfl
  rcases step_cases s with ⟨hhalted, hstep⟩ | ⟨hrun, c, hfetch, hstep⟩ | ⟨hrun, op, e, hfetch, hdec, hstep⟩ |
    ⟨hrun, op, i, hfetch, hdec, hstep⟩
  · cases hstep.symm.trans h
    exact ⟨b, step_of_halted hhalted⟩
  · cases hstep.symm.trans h
    exact ⟨b, by simp [step, cycle, hhaltedSame, hrun, hfetchSame, hfetch, raiseFatal]; rfl⟩
  · cases hstep.symm.trans h
    exact ⟨b, by simp [step, cycle, hhaltedSame, hrun, hfetchSame, hfetch, hdec, raiseFatal]; rfl⟩
  · obtain ⟨u, hexec⟩ := exec_next i (s.setIr op)
    rw [hexec] at hstep
    cases hstep.symm.trans h
    obtain ⟨b', hexec'⟩ := exec_withDirty b hexec
    refine ⟨b', ?_⟩
    have hsame : (s.withDirty b).setIr op = (s.setIr op).withDirty b := rfl
    simp [step, cycle, hhaltedSame, hrun, hfetchSame, hfetch, hdec, hsame, hexec', afterExec, endCycle_withDirty]

/-- Settles O54: the next states differ in `dirty` at most. -/
theorem dirtyAffectsNothing : Obligations.DirtyAffectsNothing := by
  intro s t b hstep
  obtain ⟨b', h⟩ := step_withDirty b hstep
  exact ⟨t.withDirty b', h, rfl⟩

end Sys2Proof.Machine
end
